-- ==== Sys2Proof/Word.lean ====
section
/-! DEFINITION. The byte of both lines and of the configuration memory. -/

namespace Sys2Proof

/-- One byte as it stands in a frame payload or in the configuration image. -/
abbrev Byte := BitVec 8

end Sys2Proof
end

