-- ==== Sys2Proof/Syntax.lean ====
section
/-! DEFINITION. The commands: one constructor for each row of spec/opcode_table.json, in the table's order, with the
operands that the event brings to the station. -/

namespace Sys2Proof

/-- What ends a begun Coach Link reply as a discarded frame or a wrong-type reply (R22, R23). -/
inductive ReplyFault where
  /-- a byte received with a framing error (R22) -/
  | framing
  /-- the CRC does not match (R22) -/
  | crc
  /-- the LEN is not permitted for the TYPE received (R22) -/
  | length
  /-- a received reply whose TYPE names no reply the request accepts (R23, R25) -/
  | wrongType
  deriving DecidableEq, Repr

/-- What ends a begun Depot Line frame as a format error (R142). -/
inductive FrameFault where
  /-- a first byte other than 0x55 -/
  | notPre
  /-- a byte with a framing error, the CRC byte or one before it -/
  | framing (inCrc : Bool)
  /-- a KIND outside 1..6 -/
  | kind
  /-- a FROM outside 1..63, or a TO outside 0..63 -/
  | address
  /-- a LEN other than the one Table 51 gives for the KIND -/
  | length
  /-- a CRC that differs from the one computed -/
  | crc
  deriving DecidableEq, Repr

/-- The commands of the FB-240. `sender` is a frame's FROM, `dest` its TO. -/
inductive Instr where
  /-- POWER_ON (R154): power-on until the supply is good (log entry 39) -/
  | powerOn
  /-- RESET_ASSERT (R154) -/
  | resetAssert
  /-- RESET_RELEASE (R154) -/
  | resetRelease
  /-- CONFIGURATION_READ (R155): the bytes read, or none when the memory does not answer -/
  | configurationRead (answer : Option (List Byte))
  /-- SHED_SELF_TEST_END (R157): whether the raw line level sampled at the end of the pull reads high -/
  | shedSelfTestEnd (lineHigh : Bool)
  /-- LISTEN_TIMER_EXPIRY (R159) -/
  | listenTimerExpiry
  /-- SILENCE_TIMEOUT (R160) -/
  | silenceTimeout
  /-- REJOIN_PERIOD_END (R161) -/
  | rejoinPeriodEnd
  /-- CONFLICT_QUIET_EXPIRY (R162) -/
  | conflictQuietExpiry
  /-- MINUTE_TICK (R163) -/
  | minuteTick
  /-- CLAIM_TICK (R99): the reading of the outside probe in half-degrees (R86) -/
  | claimTick (probe : Int)
  /-- PLUG_PIN_CHANGE (R26): the new level, true when a plug is seated -/
  | plugPinChange (seated : Bool)
  /-- PLUG_PRESENT (R26) -/
  | plugPresent
  /-- UNPLUG (R134) -/
  | unplug
  /-- REQUEST_SENT (R21) -/
  | requestSent
  /-- ATTEMPT_START (R23) -/
  | attemptStart
  /-- REPLY_TIMEOUT (R23) -/
  | replyTimeout
  /-- REPLY_GAP_TIMEOUT (R22) -/
  | replyGapTimeout
  /-- REPLY_FRAME_DISCARDED (R22): what was found -/
  | replyFrameDiscarded (found : ReplyFault)
  /-- IDENTITY (R29): the reply's payload (Table 67) -/
  | identity (payload : List Byte)
  /-- PROFILE (R29): the reply's payload (Table 67) -/
  | profile (payload : List Byte)
  /-- IDENTIFICATION_RETRY_EXPIRY (R29) -/
  | identificationRetryExpiry
  /-- POLL_DUE (R33) -/
  | pollDue
  /-- STATUS (R34): the reply's payload (Table 67) -/
  | status (payload : List Byte)
  /-- TC_HELD (R35) -/
  | tcHeld
  /-- TC_STALE (R35) -/
  | tcStale
  /-- OPENED (R45): the reply's payload (Table 67) -/
  | opened (payload : List Byte)
  /-- RECORDS (R46): the reply's payload (Table 67) -/
  | records (payload : List Byte)
  /-- BUSY (R47) -/
  | busy
  /-- BUSY_RETRY_EXPIRY (R47) -/
  | busyRetryExpiry
  /-- FAULT_REFRESH_EXPIRY (R44) -/
  | faultRefreshExpiry
  /-- FAULT_PENDING_AGE_EXPIRY (R60) -/
  | faultPendingAgeExpiry
  /-- MEASUREMENT_END (R66): voltage across the channel, current through it, umbilical supply, as sampled (R65) -/
  | measurementEnd (millivolts milliamps supply : Nat)
  /-- RETEST_TIMER_EXPIRY (R71) -/
  | retestTimerExpiry
  /-- FULL_PASS_TIMER_EXPIRY (R72) -/
  | fullPassTimerExpiry
  /-- FULL_PASS_AGE_EXPIRY (R79) -/
  | fullPassAgeExpiry
  /-- SIGNAL_PASS_TIMER (R73) -/
  | signalPassTimer
  /-- WINDOW_SETTLING_EXPIRY (R110) -/
  | windowSettlingExpiry
  /-- SHED_PIN_CHANGE (R108): the new level, true when the Shed Line is high -/
  | shedPinChange (high : Bool)
  /-- SHED_ASSERTED (R108) -/
  | shedAsserted
  /-- SHED_RELEASED (R109) -/
  | shedReleased
  /-- HOLD_OFF_EXPIRY (R109) -/
  | holdOffExpiry
  /-- MEASURED_POWER_CHANGE (R112): the power the heater draws now, in watts -/
  | measuredPowerChange (watts : Nat)
  /-- OVERCURRENT_TIMING_EXPIRY (R112) -/
  | overcurrentTimingExpiry
  /-- STUCK_TIMING_EXPIRY (R113) -/
  | stuckTimingExpiry
  /-- SHED_PULL_EXPIRY (R112) -/
  | shedPullExpiry
  /-- PRESENCE_CHANGE (R136): the new level, true when the sensor reports a vehicle -/
  | presenceChange (vehicle : Bool)
  /-- PRESENCE_TIMER_EXPIRY (R136) -/
  | presenceTimerExpiry
  /-- INTENT_WINDOW_EXPIRY (R130) -/
  | intentWindowExpiry
  /-- SPACING_TIMER_EXPIRY (R127) -/
  | spacingTimerExpiry
  /-- ASPECT_FLASH (R138) -/
  | aspectFlash
  /-- LINE_QUIET (R141) -/
  | lineQuiet
  /-- BACKOFF_EXPIRY (R144) -/
  | backoffExpiry
  /-- NOTICE_HOLDBACK_EXPIRY (R148) -/
  | noticeHoldbackExpiry
  /-- COLLISION (R145) -/
  | collision
  /-- NOTICE_COMPLETION (R146) -/
  | noticeCompletion
  /-- LIST_COMPLETION (R146) -/
  | listCompletion
  /-- LINE_GAP_TIMEOUT (R142) -/
  | lineGapTimeout
  /-- FRAME_FORMAT_ERROR (R142): what was found -/
  | frameFormatError (found : FrameFault)
  /-- NOTICE_RECEIVED (R151) -/
  | noticeReceived (sender dest : Byte) (payload : List Byte)
  /-- PLAN (R5) -/
  | plan (sender dest : Byte) (payload : List Byte)
  /-- PLAN_CANCEL (R4) -/
  | planCancel (sender dest : Byte) (payload : List Byte)
  /-- HOLD (R124) -/
  | hold (sender dest : Byte) (payload : List Byte)
  /-- ACKNOWLEDGE (R16) -/
  | acknowledge (sender dest : Byte) (payload : List Byte)
  /-- QUERY_LAMPS (R82): the start index of the QUERY -/
  | queryLamps (sender dest start : Byte)
  /-- QUERY_FAULTS (R61) -/
  | queryFaults (sender dest start : Byte)
  /-- QUERY_HEAT (R117) -/
  | queryHeat (sender dest start : Byte)
  /-- QUERY_LINE (R153) -/
  | queryLine (sender dest start : Byte)
  /-- LIST_RECEIVED (R143) -/
  | listReceived (sender dest : Byte)
  /-- PEER_ENTRY_EXPIRY (R152): the station number of the entry -/
  | peerEntryExpiry (station : Nat)
  /-- LINE_START_BIT (R141) -/
  | lineStartBit
  /-- REPLY_FRAME_BEGIN (R22) -/
  | replyFrameBegin
  /-- QUERY_UNKNOWN_SUBJECT (R164) -/
  | queryUnknownSubject (sender dest subject start : Byte)
  deriving DecidableEq, Repr

end Sys2Proof
end

