-- ==== Sys2Proof/Decode.lean ====
section
/-! DEFINITION. No row of spec/opcode_table.json carries bits ("fields" is empty in every row), so no word spells a
command. -/

namespace Sys2Proof

/-- The command that the word `w` of `nbits` bits spells by the table's bits: none, for no row gives bits (DESIGN CHOICE,
log entry 26, safe). -/
def decodeTableWord (_nbits _w : Nat) : Option Instr := none

end Sys2Proof
end

