-- ==== Sys2Proof/Config.lean ====
section
/-! DEFINITION. The constants of Table 5 and of the rules that own them, in microseconds of the station clock where
they are times. The configuration image of a station is state (Machine/State.lean), not a constant. No value of the
spec is left undefined after a command, so no free value stands here. -/

namespace Sys2Proof.Config

/-- One millisecond in units of the station clock. -/
def millisecond : Nat := 1000

/-- One second in units of the station clock. -/
def second : Nat := 1000 * millisecond

/-- One bit time of the Depot Line, 16 µs (R139). -/
def bitTime : Nat := 16

/-- Line quiet: 15 bit times without a start bit (R141). -/
def lineQuiet : Nat := 15 * bitTime

/-- One slot of the backoff: 4 bit times (R144). -/
def backoffSlot : Nat := 4 * bitTime

/-- Failed attempts at which a frame is dropped (R146). -/
def maxAttempts : Nat := 6

/-- Minimum spacing of NOTICE starts (R148). -/
def noticeSpacing : Nat := 250 * millisecond

/-- Age at which a Peer Table entry is stale (R152). -/
def peerStale : Nat := 5 * second

/-- Age at which a Peer Table entry expires (R152). -/
def peerExpiry : Nat := 9 * second

/-- A reply begins within 50 ms of the request's end (R23). -/
def replyWindow : Nat := 50 * millisecond

/-- Two byte times of the Coach Link at 19.2 kbit/s, 1041.67 µs, rounded up to a whole microsecond: what is left, at the
end of a byte, of the 3 byte times of quiet that count from its start bit (R23). DESIGN CHOICE: the rounding (log entry
16); safe, since no rule compares times finer than that. -/
def twoByteTimes : Nat := 1042

/-- Attempts per exchange (R23, R24). -/
def exchangeAttempts : Nat := 3

/-- Plug debounce (R26). -/
def plugDebounce : Nat := 200 * millisecond

/-- Retry of identification after a failure (R29). -/
def identificationRetry : Nat := 5 * second

/-- POLL interval (R33). -/
def pollPeriod : Nat := 5 * second

/-- A cabin temperature is HELD after this time without STATUS (R35). -/
def tcHeldAfter : Nat := 15 * second

/-- A cabin temperature is STALE after this time without STATUS (R35). -/
def tcStaleAfter : Nat := 120 * second

/-- Fault refresh timer (R44). -/
def faultRefresh : Nat := 120 * second

/-- Wait after a BUSY reply (R47). -/
def busyWait : Nat := 100 * millisecond

/-- Replies in a row that advance nothing and end a sequence (R47). -/
def busyLimit : Nat := 20

/-- FAULT_PENDING age timer (R60). -/
def faultAge : Nat := 180 * second

/-- Entries of the Fault Table (Table 21). -/
def faultTableSize : Nat := 32

/-- One lamp measurement (R65). -/
def measurement : Nat := 40 * millisecond

/-- Umbilical supply below which a coach channel is UNJUDGED, in mV (R66). -/
def supplyLimit : Nat := 18000

/-- Current below which a channel is OPEN, in mA (R66). -/
def openCurrent : Nat := 5

/-- Retries at which a failed channel becomes final (R67). -/
def retryLimit : Nat := 6

/-- Retest timer (R71). -/
def retestDelay : Nat := 5 * second

/-- Full pass timer (R72). -/
def fullPassInterval : Nat := 600 * second

/-- Full-pass age timer (R72, R79). -/
def fullPassAge : Nat := 900 * second

/-- Signal pass timer period (R73). -/
def signalPassPeriod : Nat := 60 * second

/-- Window settling (R110). -/
def windowSettling : Nat := 100 * millisecond

/-- Claim tick period (R98). -/
def claimPeriod : Nat := 2 * second

/-- First claim tick: LISTEN entry plus this times the station number (R98). -/
def claimOffset : Nat := 31 * millisecond

/-- Shed debounce, both ways (R108). -/
def shedDebounce : Nat := 50 * millisecond

/-- Fixed part of the release hold-off (R109). -/
def holdOffBase : Nat := 500 * millisecond

/-- Part of the release hold-off for each station number (R109). -/
def holdOffStep : Nat := 100 * millisecond

/-- Overdraw timing (R112). -/
def overcurrentTime : Nat := 1 * second

/-- Draw timing at stage 0 (R113). -/
def stuckTime : Nat := 2 * second

/-- Shed pull timer (R112, R113). -/
def shedPull : Nat := 10 * second

/-- Largest value of the energy counter (R116). -/
def energyMax : Nat := 4294967295

/-- Full heater power the monitor assumes with no coach identity, in watts (R112). -/
def powerWithoutIdentity : Nat := 1000

/-- Intent window (R128). -/
def intentWindow : Nat := 600 * millisecond

/-- Presence timer with the sensor fitted (R136). -/
def presenceSensed : Nat := 3 * second

/-- Presence timer without the sensor (R136). -/
def presenceUnsensed : Nat := 60 * second

/-- Half-period of a flashing aspect (R138). -/
def flashHalf : Nat := 500 * millisecond

/-- Shed self test pull (R157). -/
def selfTestPull : Nat := 20 * millisecond

/-- LISTEN timer (R159). -/
def listenTime : Nat := 5 * second

/-- Silence that makes a station in RUN ISOLATED (R160). -/
def silenceTime : Nat := 10 * second

/-- Conflict quiet timer (R162). -/
def conflictQuiet : Nat := 60 * second

/-- Minute tick period (R163). -/
def minutePeriod : Nat := 60 * second

/-- Largest value of a statistics counter (R153). -/
def counterMax : Nat := 65535

/-- Largest value of the overflow counter (R55). -/
def overflowMax : Nat := 255

/-- LIST frames the transmit queue holds at most (R147). -/
def listPlaces : Nat := 2

end Sys2Proof.Config
end

