-- ==== Sys2Proof/Machine/State.lean ====
section
/-! DEFINITION. The state of the station, block by block as Table 1 of 00_scope.md names them, the queue of waiting
commands, and the state after reset. -/

namespace Sys2Proof.Machine

/-- A timer: stopped, or the time of the station clock, in microseconds, at which it runs out. -/
abbrev Timer := Option Nat

/-! ### Names of the manual (Table 62) -/

/-- Station modes (Table 54). -/
inductive Mode where
  | start | halt | listen | run | isolated | conflict
  deriving DecidableEq, Repr

/-- How far START has come (R154, R155, R157): held in reset, reading the configuration memory, in the shed self test,
or over. -/
inductive StartStep where
  | held | reading | selfTest | over
  deriving DecidableEq, Repr

/-- Phases of a bay (Table 44). -/
inductive Phase where
  | vacant | coupling | coupled | preparing | ready | clearing | cleared | departing
  deriving DecidableEq, Repr

/-- Match state of the plan (R6). -/
inductive MatchState where
  | none | matched | mismatch
  deriving DecidableEq, Repr

/-- Section statuses (Table 12). -/
inductive SectionStatus where
  | off | initial | clean | dirty
  deriving DecidableEq, Repr

/-- Cabin temperature state (R35). -/
inductive TcState where
  | none | current | held | stale
  deriving DecidableEq, Repr

/-- Lamp channel status (Table 28). -/
inductive LampStatus where
  | off | initial | unjudged | pass | opened | short | partly
  deriving DecidableEq, Repr

/-- Fault classes (Table 23, Table 62). -/
inductive FaultClass where
  | body | drivetrain | brakes | doors | lighting | heater | other
  deriving DecidableEq, Repr

/-- How the last read sequence ended (Table 21). -/
inductive ReadEnding where
  | none | complete | incomplete | aborted
  deriving DecidableEq, Repr

/-- Query subjects (Table 60). -/
inductive Subject where
  | lamps | faults | heat | line
  deriving DecidableEq, Repr

/-! ### Pins and inputs (Table 58) -/

/-- The levels of the digital inputs and the measured heater power. -/
structure Pins where
  /-- RESET, true when high -/
  reset : Bool
  /-- PLUG, true when an umbilical plug is seated -/
  plug : Bool
  /-- SHED, true when the line is high -/
  shedHigh : Bool
  /-- PRES, true when the sensor reports a vehicle -/
  vehicle : Bool
  /-- the power measured from HCUR and USUP, in watts (R112) -/
  power : Nat
  deriving DecidableEq, Repr

/-! ### Station Control -/

/-- The configuration image with its values clamped (Table 56). -/
structure StationConfig where
  station : Nat
  lane : Nat
  position : Nat
  /-- dispatch numbers of the two slots, 0 for a slot not used -/
  dispatch1 : Nat
  dispatch2 : Nat
  /-- feeder budget B -/
  budget : Nat
  /-- fair share F -/
  fairShare : Nat
  /-- window allowance Wu -/
  windowAllowance : Nat
  /-- exit spacing X in seconds -/
  spacing : Nat
  /-- release lead R in minutes -/
  releaseLead : Nat
  /-- restrictive class set, bit n for class code n -/
  restrictive : BitVec 7
  redFitted : Bool
  amberFitted : Bool
  greenFitted : Bool
  /-- LED count n of the signal lamps -/
  signalLeds : Nat
  /-- forward drop Vf of the signal lamps, in 100 mV -/
  signalVf : Nat
  presenceFitted : Bool
  currentFitted : Bool
  deriving DecidableEq, Repr

/-- The eight alarm latches (Table 14). -/
structure Alarms where
  pullout : Bool
  overcurrent : Bool
  contactorFail : Bool
  linkLost : Bool
  signalRedFail : Bool
  numberConflict : Bool
  shedLineFault : Bool
  probeFault : Bool
  deriving DecidableEq, Repr

/-- A section's status and its change mark (R12 to R14). -/
structure Section where
  status : SectionStatus
  mark : Bool
  deriving DecidableEq, Repr

/-- Station Control: Table 54, the alarm latches and the section statuses. -/
structure Sc where
  mode : Mode
  startStep : StartStep
  /-- the 20 ms pull of the shed self test (R157) -/
  selfTest : Timer
  config : Option StationConfig
  listenTimer : Timer
  silence : Timer
  /-- the rejoin period: claim ticks still to come in it (R161) -/
  rejoin : Option Nat
  conflictTimer : Timer
  minuteTimer : Timer
  alarms : Alarms
  phase : Section
  heat : Section
  lamp : Section
  fault : Section
  deriving DecidableEq, Repr

/-! ### Coach identity (Table 8) -/

/-- One entry of the channel profile. -/
structure ProfileEntry where
  fitted : Bool
  mandatory : Bool
  /-- LED count n -/
  leds : Nat
  deriving DecidableEq, Repr

/-- The coach identity of the Bay Record, with the profile-clamped note (R1, R2). -/
structure CoachIdentity where
  number : Nat
  /-- heat capacity C in kJ/K -/
  capacity : Nat
  /-- loss coefficient L in W/K -/
  loss : Nat
  /-- heater rating Pr in claim units -/
  rating : Nat
  /-- stage count S -/
  stages : Nat
  /-- LED forward drop Vf in 100 mV -/
  vf : Nat
  /-- the 16 entries of the channel profile, channel 1 first -/
  profile : List ProfileEntry
  /-- profile-clamped note -/
  clamped : Bool
  deriving DecidableEq, Repr

/-! ### Coach Link Controller -/

/-- Requests on the Coach Link (Table 17). -/
inductive Request where
  | identify
  | getProfile
  | poll
  | openRead (start budget : Nat)
  | fetch (toggle : Bool)
  deriving DecidableEq, Repr

/-- Where an attempt stands (R21 to R23): the request is being sent; the reply window is open; a reply frame has
begun; the attempt has failed and the next waits until the link has been quiet for 3 byte times; in that wait a late
frame, which belongs to no attempt, is on the link. -/
inductive AttemptStep where
  | sending | window | receiving | waitQuiet | lateFrame
  deriving DecidableEq, Repr

/-- The exchange in flight (R24). -/
structure Exchange where
  request : Request
  attempt : Nat
  step : AttemptStep
  /-- the 50 ms of the reply window, or the wait for quiet -/
  timer : Timer
  deriving DecidableEq, Repr

/-- The last STATUS (R34). -/
structure LastStatus where
  tc : Int
  arrived : Nat
  deriving DecidableEq, Repr

/-- Coach Link Controller (Table 16). -/
structure Clc where
  /-- debounced plug state, true for PRESENT -/
  plug : Bool
  plugFilter : Timer
  linkUp : Bool
  exchange : Option Exchange
  pendingId : Bool
  pendingPoll : Bool
  pendingRead : Option Request
  /-- the held IDENTITY reply of the pair (R29) -/
  heldIdentity : Option (List Byte)
  retryTimer : Timer
  pollTimer : Timer
  lastStatus : Option LastStatus
  tcState : TcState
  changeCount : Option Nat
  deriving DecidableEq, Repr

/-! ### Fault Table Unit -/

/-- A coach fault record after clamping, or the reported part of an entry (R52, Table 23). -/
structure FaultRecord where
  module : Nat
  cls : FaultClass
  code : Nat
  severity : Nat
  /-- ACTIVE or STORED -/
  active : Bool
  occurrences : Nat
  hint : Option Nat
  deriving DecidableEq, Repr

/-- A Fault Table entry. Its blocking value follows from the record and the configuration (R56). -/
structure FaultEntry where
  record : FaultRecord
  seen : Bool
  deriving DecidableEq, Repr

/-- The current read of a running sequence (R43, R45): OPENING or FETCHING. -/
structure CurrentRead where
  start : Nat
  budget : Nat
  fetching : Bool
  deriving DecidableEq, Repr

/-- Fault Table Unit (Table 21). The sequence state is RUNNING exactly while a current read is held. -/
structure Ftu where
  table : List FaultEntry
  read : Option CurrentRead
  toggle : Bool
  busyCount : Nat
  /-- the 100 ms wait after a BUSY reply (R47) -/
  busyWait : Timer
  reread : Bool
  refreshTimer : Timer
  blockingDropped : Bool
  droppedInSequence : Bool
  overflow : Nat
  lastEnding : ReadEnding
  lastComplete : Option Nat
  ageTimer : Timer
  deriving DecidableEq, Repr

/-! ### Lamp Test Unit -/

/-- A Lamp Table channel record (Table 28) with its channel number. -/
structure Channel where
  num : Nat
  status : LampStatus
  lastV : Nat
  lastI : Nat
  retries : Nat
  masked : Bool
  coachReported : Bool
  confirmed : Bool
  isFinal : Bool
  deriving DecidableEq, Repr

/-- Kinds of pass (R70). -/
inductive PassKind where
  | retest | signal | full
  deriving DecidableEq, Repr

/-- The pass in flight: its kind, its channel set, and the channels not yet measured, ascending (R70, R74). -/
structure Pass where
  kind : PassKind
  channels : List Nat
  remaining : List Nat
  deriving DecidableEq, Repr

/-- The window state of the LTU (R75). -/
inductive LtuWindow where
  | none | waiting | held
  deriving DecidableEq, Repr

/-- What a pass met at its beginning, kept for a kind that becomes pending at that very moment (R70): the model's own. -/
structure PassMet where
  requests : List Nat
  channels : List Channel
  fullTimer : Timer
  deriving DecidableEq, Repr

/-- Lamp Test Unit (Tables 28 and 29). -/
structure Ltu where
  channels : List Channel
  pendingRetest : Bool
  pendingSignal : Bool
  pendingFull : Bool
  /-- retest request set -/
  requests : List Nat
  pass : Option Pass
  measuring : Option Nat
  measureTimer : Timer
  stop : Bool
  window : LtuWindow
  retestTimer : Timer
  fullTimer : Timer
  ageTimer : Timer
  signalTimer : Timer
  /-- the model's own: the moment at which a pass last ended (R70) -/
  endedAt : Option Nat
  /-- the model's own: what the pass last begun met (R70) -/
  met : PassMet
  deriving DecidableEq, Repr

/-! ### Heat Planner -/

/-- Heat Planner (Table 33). -/
structure Hp where
  toInUse : Int
  probeLast : Option Int
  deltaT : Int
  ew : Nat
  pm : Nat
  pw : Nat
  p : Nat
  q : Nat
  tf : Nat
  slack : Int
  short : Bool
  unreachable : Bool
  stale : Bool
  reached : Bool
  /-- the model's own: the first claim tick at which the HP runs since HEAT became INITIAL is still to come (R13) -/
  firstRun : Bool
  deriving DecidableEq, Repr

/-! ### Heater Control Unit -/

/-- The window state of the HCU (R110). The WINDOW flag is set exactly outside NONE. -/
inductive HcuWindow where
  | none | settling | effective
  deriving DecidableEq, Repr

/-- States of the heater current monitor (Table 41). -/
inductive Monitor where
  | watching | overTiming | stuckTiming
  deriving DecidableEq, Repr

/-- The shed pull of the HCU (R112, R113). -/
inductive ShedPull where
  | none | overcurrent | contactor
  deriving DecidableEq, Repr

/-- Heater Control Unit (Table 39). -/
structure Hcu where
  stage : Nat
  grant : Nat
  /-- target stage s* as last worked out -/
  target : Nat
  raise : Option Nat
  /-- announced claim Qa -/
  announced : Nat
  window : HcuWindow
  settling : Timer
  /-- shed sense, true for ASSERTED -/
  asserted : Bool
  shedFilter : Timer
  holdOff : Timer
  shedFlag : Bool
  rejoinCap : Option Nat
  faultLockout : Bool
  overLockout : Bool
  monitor : Monitor
  monitorTimer : Timer
  pull : ShedPull
  pullTimer : Timer
  /-- contactor check, true for ARMED -/
  armed : Bool
  /-- energy counter Ed in joules -/
  energy : Nat
  sat : Bool
  claimTimer : Timer
  deriving DecidableEq, Repr

/-! ### Clearance Unit -/

/-- The departure plan (Table 9); the match state stands beside it. -/
structure Plan where
  coach : Nat
  /-- minutes to departure M -/
  minutes : Nat
  /-- target cabin temperature Tt -/
  target : Int
  heatWaiver : Bool
  laneWaiver : Bool
  /-- lamp mask, bit 0 for channel 1 -/
  mask : BitVec 16
  late : Bool
  deriving DecidableEq, Repr

/-- The block set (Table 46). -/
structure Blocks where
  noPlan : Bool
  planMismatch : Bool
  heat : Bool
  lampPending : Bool
  lampFail : Bool
  signalFail : Bool
  faultPending : Bool
  faultStop : Bool
  link : Bool
  lane : Bool
  hold : Bool
  station : Bool
  deriving DecidableEq, Repr

/-- Intent state (R128). -/
inductive Intent where
  | none | awaiting | window
  deriving DecidableEq, Repr

/-- The own contest key: M as announced, and the own station number (R128, R129). -/
structure ContestKey where
  minutes : Nat
  station : Nat
  deriving DecidableEq, Repr

/-- The lamp an aspect lights. -/
inductive Lamp where
  | dark | red | amber | green
  deriving DecidableEq, Repr

/-- An aspect of the bay signal (Table 47). -/
structure Aspect where
  lamp : Lamp
  flashing : Bool
  deriving DecidableEq, Repr

/-- Clearance Unit (Table 45). -/
structure Cu where
  phase : Phase
  blocks : Blocks
  plan : Option Plan
  matchState : MatchState
  /-- hold lane set, bit 0 for lane 1 -/
  holdLanes : BitVec 16
  spacing : Timer
  intent : Intent
  intentTimer : Timer
  key : Option ContestKey
  retryHold : Bool
  presence : Timer
  aspect : Aspect
  /-- the lit half of a flashing aspect, or a steady aspect other than dark -/
  lit : Bool
  flash : Timer
  deriving DecidableEq, Repr

/-! ### Line Unit and dispatch request handling -/

/-- Receiver state (R141, R142). -/
inductive Receiver where
  | idle | assembling | skipping
  deriving DecidableEq, Repr

/-- The snapshot of a NOTICE (R149): its payload, and what the completion hands on (R14, R106, R128). -/
structure Snapshot where
  payload : List Byte
  phase : Phase
  minutes : Option Nat
  q : Nat
  phaseStatus : SectionStatus
  heatStatus : SectionStatus
  lampStatus : SectionStatus
  faultStatus : SectionStatus
  deriving DecidableEq, Repr

/-- A LIST frame in the transmit queue, as built at its acceptance (R165). -/
structure ListFrame where
  dest : Nat
  subject : Subject
  first : Nat
  total : Nat
  payload : List Byte
  deriving DecidableEq, Repr

/-- The content of the frame in flight. -/
inductive FlightContent where
  | notice (snap : Snapshot)
  | list (frame : ListFrame)
  deriving DecidableEq, Repr

/-- The frame in flight: content, the bytes every attempt sends, failed-attempt count (R144, R146). -/
structure Flight where
  content : FlightContent
  bytes : List Byte
  failed : Nat
  deriving DecidableEq, Repr

/-- A Peer Table entry (Table 52). Its age is the clock less `heard`. -/
structure PeerEntry where
  station : Nat
  lane : Nat
  position : Nat
  phase : Phase
  previous : Option Phase
  mode : Mode
  q : Nat
  slack : Int
  /-- M, none for 0xFFFF -/
  minutes : Option Nat
  heard : Nat
  deriving DecidableEq, Repr

/-- The statistics counters (R153). -/
structure Stats where
  format : Nat
  gap : Nat
  collisions : Nat
  dropped : Nat
  unauthorised : Nat
  deriving DecidableEq, Repr

/-- The reply in progress (Table 59). -/
structure Reply where
  subject : Subject
  requester : Nat
  next : Nat
  offered : Nat
  deriving DecidableEq, Repr

/-- Line Unit (Table 50) with the dispatch request handling (Table 59). -/
structure Lu where
  receiver : Receiver
  quiet : Bool
  quietTimer : Timer
  backoff : Timer
  /-- an attempt is being driven onto the line -/
  sending : Bool
  flight : Option Flight
  unbegun : Bool
  /-- queued LIST frames, the one in flight not among them -/
  lists : List ListFrame
  lastNotice : Option Nat
  peers : List PeerEntry
  stats : Stats
  reply : Option Reply
  /-- the model's own: the moment of the last of the events that R168 places beside each other, a LIST leaving the
  queue, a QUERY accepted, a number conflict (log entry 35) -/
  lineEvent : Option Nat
  deriving DecidableEq, Repr

/-! ### The station and the machine -/

/-- The FB-240: its clock, its input levels and its blocks. -/
structure Device where
  /-- the station oscillator's time in microseconds (log entry 2) -/
  clock : Nat
  pins : Pins
  sc : Sc
  identity : Option CoachIdentity
  clc : Clc
  ftu : Ftu
  ltu : Ltu
  hp : Hp
  hcu : Hcu
  cu : Cu
  lu : Lu
  deriving DecidableEq, Repr

/-- The whole machine: the commands that wait, first in first out, and the device. -/
structure State where
  pending : List Instr
  dev : Device
  deriving DecidableEq, Repr

/-- The manual describes no event that stops the station: a failed check leads to the mode HALT, which is a state
(R158), and bad frames, failed exchanges and failed lamps are counted or reported. So no meaning raises a fault, and
the type has no member. Safe. -/
inductive Fault where
  deriving DecidableEq, Repr

/-- Why a step has no meaning. -/
inductive Refusal where
  /-- Raised by an arm of exec whose command is not modelled yet; the mnemonic is the table's. Safe. -/
  | notModelled (mnemonic : String)
  deriving DecidableEq, Repr

/-! ### Reset values -/

/-- All latches clear (R15). -/
def Alarms.clear : Alarms :=
  ⟨false, false, false, false, false, false, false, false⟩

/-- No block present. -/
def Blocks.empty : Blocks :=
  ⟨false, false, false, false, false, false, false, false, false, false, false, false⟩

/-- A section that is OFF with its change mark clear (R12). -/
def Section.off : Section := ⟨.off, false⟩

/-- A lamp channel that is OFF (R62). -/
def Channel.off (num : Nat) : Channel := ⟨num, .off, 0, 0, 0, false, false, false, false⟩

/-- Station Control after power-on and RESET (Tables 15 and 54). -/
def Sc.reset (startStep : StartStep) : Sc where
  mode := .start
  startStep := startStep
  selfTest := none
  config := none
  listenTimer := none
  silence := none
  rejoin := none
  conflictTimer := none
  minuteTimer := none
  alarms := .clear
  phase := .off
  heat := .off
  lamp := .off
  fault := .off

/-- Coach Link Controller after power-on and RESET (R40), with its plug filter as given. -/
def Clc.reset (plugFilter : Timer) : Clc where
  plug := false
  plugFilter := plugFilter
  linkUp := false
  exchange := none
  pendingId := false
  pendingPoll := false
  pendingRead := none
  heldIdentity := none
  retryTimer := none
  pollTimer := none
  lastStatus := none
  tcState := .none
  changeCount := none

/-- Fault Table Unit after power-on and RESET, and at each entry to VACANT and COUPLING (R41, Table 21). -/
def Ftu.reset : Ftu where
  table := []
  read := none
  toggle := false
  busyCount := 0
  busyWait := none
  reread := false
  refreshTimer := none
  blockingDropped := false
  droppedInSequence := false
  overflow := 0
  lastEnding := .none
  lastComplete := none
  ageTimer := none

/-- The 19 channels, all OFF (R62). -/
def Ltu.offChannels : List Channel :=
  [1, 2, 3, 4, 5, 6, 7, 8, 9, 10, 11, 12, 13, 14, 15, 16, 17, 18, 19].map Channel.off

/-- Lamp Test Unit after power-on and RESET (R62, Table 29). -/
def Ltu.reset : Ltu where
  channels := Ltu.offChannels
  pendingRetest := false
  pendingSignal := false
  pendingFull := false
  requests := []
  pass := none
  measuring := none
  measureTimer := none
  stop := false
  window := .none
  retestTimer := none
  fullTimer := none
  ageTimer := none
  signalTimer := none
  endedAt := none
  met := ⟨[], [], none⟩

/-- Heat Planner after power-on and RESET (R95). -/
def Hp.reset : Hp where
  toInUse := -60
  probeLast := none
  deltaT := 0
  ew := 0
  pm := 0
  pw := 0
  p := 0
  q := 0
  tf := 0
  slack := 1080
  short := false
  unreachable := false
  stale := false
  reached := false
  firstRun := false

/-- Heater Control Unit after power-on and RESET (R118, Table 39), with its shed filter as given. -/
def Hcu.reset (shedFilter : Timer) : Hcu where
  stage := 0
  grant := 0
  target := 0
  raise := none
  announced := 0
  window := .none
  settling := none
  asserted := false
  shedFilter := shedFilter
  holdOff := none
  shedFlag := false
  rejoinCap := none
  faultLockout := false
  overLockout := false
  monitor := .watching
  monitorTimer := none
  pull := .none
  pullTimer := none
  armed := true
  energy := 0
  sat := false
  claimTimer := none

/-- Clearance Unit after power-on and RESET (R119, Table 45). -/
def Cu.reset : Cu where
  phase := .vacant
  blocks := .empty
  plan := none
  matchState := .none
  holdLanes := 0#16
  spacing := none
  intent := .none
  intentTimer := none
  key := none
  retryHold := false
  presence := none
  aspect := ⟨.dark, false⟩
  lit := false
  flash := none

/-- Line Unit after power-on and RESET (Table 50, Table 59). -/
def Lu.reset : Lu where
  receiver := .idle
  quiet := false
  quietTimer := none
  backoff := none
  sending := false
  flight := none
  unbegun := false
  lists := []
  lastNotice := none
  peers := []
  stats := ⟨0, 0, 0, 0, 0⟩
  reply := none
  lineEvent := none

/-- Every block at its reset value (R154), with the clock, the input levels, the step of START and the two input
filters as given. -/
def Device.resetBlocks (clock : Nat) (pins : Pins) (startStep : StartStep) (plugFilter shedFilter : Timer) :
    Device where
  clock := clock
  pins := pins
  sc := Sc.reset startStep
  identity := none
  clc := Clc.reset plugFilter
  ftu := Ftu.reset
  ltu := Ltu.reset
  hp := Hp.reset
  hcu := Hcu.reset shedFilter
  cu := Cu.reset
  lu := Lu.reset

/-- The input levels at reset. DESIGN CHOICE (log entry 3), unsafe: RESET is high, no plug is seated, the Shed Line is
high, the presence sensor reports no vehicle and no heater power is measured. -/
def Pins.reset0 : Pins := ⟨true, false, true, false, 0⟩

/-- The machine right after reset, the supply good: RESET is high, the mode is START and the configuration read has begun
(R154; log entries 3, 4 and 39). -/
def State.reset : State where
  pending := []
  dev := Device.resetBlocks 0 Pins.reset0 .reading none none

end Sys2Proof.Machine
end

