-- ==== Sys2Proof/Machine/Ops.lean ====
section
/-! DEFINITION. Operations that every block shares: an update of one block, timers, the configuration in use, the
modes and phases by group, alarm latches, section marks and NOTICE requests. -/

namespace Sys2Proof.Machine

/-! ### One block at a time -/

/-- The machine with its device changed and its queue kept. -/
def State.onDevice (s : State) (f : Device → Device) : State := { s with dev := f s.dev }

/-- What a step answers. -/
abbrev Result := Host.Outcome State Fault Refusal

/-- A command's effect on the device, the queue kept. Every meaning has this form: the manual has no event that stops
the station. -/
def State.did (s : State) (f : Device → Device) : Result := .next (s.onDevice f)

/-- Change Station Control alone. -/
def Device.onSc (d : Device) (f : Sc → Sc) : Device := { d with sc := f d.sc }

/-- Change the Coach Link Controller alone. -/
def Device.onClc (d : Device) (f : Clc → Clc) : Device := { d with clc := f d.clc }

/-- Change the Fault Table Unit alone. -/
def Device.onFtu (d : Device) (f : Ftu → Ftu) : Device := { d with ftu := f d.ftu }

/-- Change the Lamp Test Unit alone. -/
def Device.onLtu (d : Device) (f : Ltu → Ltu) : Device := { d with ltu := f d.ltu }

/-- Change the Heat Planner alone. -/
def Device.onHp (d : Device) (f : Hp → Hp) : Device := { d with hp := f d.hp }

/-- Change the Heater Control Unit alone. -/
def Device.onHcu (d : Device) (f : Hcu → Hcu) : Device := { d with hcu := f d.hcu }

/-- Change the Clearance Unit alone. -/
def Device.onCu (d : Device) (f : Cu → Cu) : Device := { d with cu := f d.cu }

/-- Change the Line Unit alone. -/
def Device.onLu (d : Device) (f : Lu → Lu) : Device := { d with lu := f d.lu }

/-- Change the input levels alone. -/
def Device.onPins (d : Device) (f : Pins → Pins) : Device := { d with pins := f d.pins }

/-- Replace the coach identity alone. -/
def Device.setIdentity (d : Device) (identity : Option CoachIdentity) : Device := { d with identity := identity }

/-! ### Time -/

/-- A timer of the given length started now. -/
def Device.timer (d : Device) (length : Nat) : Timer := some (d.clock + length)

/-- The clock stands at `t` at least. -/
def Device.reach (d : Device) (t : Nat) : Device := { d with clock := max d.clock t }

/-- The expiry of a timer: with the timer stopped it does not arise (DESIGN CHOICE, log entry 1, safe); otherwise the
clock stands at the deadline at least (DESIGN CHOICE, log entry 2, unsafe) and the effect follows. -/
def Device.onExpiry (d : Device) (timer : Timer) (effect : Device → Device) : Device :=
  match timer with
  | none => d
  | some t => effect (d.reach t)

/-- The next deadline of a periodic timer: one period after the deadline that has just run out. -/
def Timer.next (timer : Timer) (period : Nat) : Timer := timer.map (· + period)

/-! ### Configuration -/

/-- Stands for a configuration image while none is held. No rule reads a configured value then (R109, R158). DESIGN
CHOICE (log entry 27), safe. -/
def StationConfig.unread : StationConfig :=
  ⟨0, 0, 0, 0, 0, 0, 0, 0, 0, 0, 0#7, false, false, false, 0, 0, false, false⟩

/-- The configuration image in use (R155). -/
def Device.conf (d : Device) : StationConfig := d.sc.config.getD StationConfig.unread

/-! ### Modes and phases by group -/

/-- LISTEN, RUN and ISOLATED: the modes in which the transmitter drives the line (R150). -/
def Mode.speaks : Mode → Bool
  | .listen | .run | .isolated => true
  | .start | .halt | .conflict => false

/-- LISTEN, RUN, ISOLATED and CONFLICT: the modes in which the receiver works (R139). -/
def Mode.hears : Mode → Bool
  | .listen | .run | .isolated | .conflict => true
  | .start | .halt => false

/-- RUN and ISOLATED: the modes of heat computation and coupling (Table 55). -/
def Mode.heats : Mode → Bool
  | .run | .isolated => true
  | .start | .halt | .listen | .conflict => false

/-- COUPLING..CLEARED, the phases of the coach blocks (Table 46). -/
def Phase.withCoach : Phase → Bool
  | .coupling | .coupled | .preparing | .ready | .clearing | .cleared => true
  | .vacant | .departing => false

/-- COUPLED..CLEARED, the phases with an identified coach at the umbilical. -/
def Phase.identified : Phase → Bool
  | .coupled | .preparing | .ready | .clearing | .cleared => true
  | .vacant | .coupling | .departing => false

/-- PREPARING..CLEARED, the phases of heat computation and lamp passes. -/
def Phase.prepared : Phase → Bool
  | .preparing | .ready | .clearing | .cleared => true
  | .vacant | .coupling | .coupled | .departing => false

/-- CLEARING and CLEARED. -/
def Phase.clearance : Phase → Bool
  | .clearing | .cleared => true
  | .vacant | .coupling | .coupled | .preparing | .ready | .departing => false

/-- VACANT and COUPLING, at whose entries the coach is torn down (R137). -/
def Phase.tornDown : Phase → Bool
  | .vacant | .coupling => true
  | .coupled | .preparing | .ready | .clearing | .cleared | .departing => false

/-! ### Alarms, sections, NOTICE requests -/

/-- Change the alarm latches alone. -/
def Device.onAlarms (d : Device) (f : Alarms → Alarms) : Device := d.onSc fun sc => { sc with alarms := f sc.alarms }

/-- A NOTICE request, periodic or early: it makes an unbegun NOTICE or merges into the one there (R148). The LU takes
none in START, HALT and CONFLICT (R150). -/
def Device.requestNotice (d : Device) : Device :=
  if d.sc.mode.speaks then d.onLu fun lu => { lu with unbegun := true } else d

/-- A change of a section's content: DIRTY with the change mark set, unless the section is OFF (R13). -/
def Section.touch (x : Section) : Section := if x.status = .off then x else ⟨.dirty, true⟩

/-- A change of PHASE content, which also asks for an early NOTICE (R13). -/
def Device.touchPhase (d : Device) : Device :=
  (d.onSc fun sc => { sc with phase := sc.phase.touch }).requestNotice

/-- A change of HEAT content (R13). -/
def Device.touchHeat (d : Device) : Device := d.onSc fun sc => { sc with heat := sc.heat.touch }

/-- A change of LAMP content (R13). -/
def Device.touchLamp (d : Device) : Device := d.onSc fun sc => { sc with lamp := sc.lamp.touch }

/-- A change of FAULT content (R13). -/
def Device.touchFault (d : Device) : Device := d.onSc fun sc => { sc with fault := sc.fault.touch }

/-! ### Numbers -/

/-- The nearest value of lo..hi. -/
def clampNat (lo hi x : Nat) : Nat := max lo (min hi x)

/-- The nearest value of lo..hi. -/
def clampInt (lo hi x : Int) : Int := max lo (min hi x)

/-- ceiling(a / b). -/
def ceilDiv (a b : Nat) : Nat := (a + b - 1) / b

/-- A counter that stays at its largest value. -/
def countUp (top n : Nat) : Nat := if n < top then n + 1 else n

end Sys2Proof.Machine
end

