-- ==== Sys2Proof/Machine/Flags.lean ====
section
/-! DEFINITION. The conditions that the units hand to the Clearance Unit, the block set, the match state, the heat
lockout signal and the corroboration set: everything that follows from the state at a moment. -/

namespace Sys2Proof.Machine

/-! ### Plan (R6, R122) -/

/-- The match state of the plan (R6). -/
def Device.evalMatch (d : Device) : MatchState :=
  match d.cu.plan, d.identity with
  | some plan, some id =>
    if d.cu.phase = .departing then .none
    else if plan.coach = 0 ∨ plan.coach = id.number then .matched
    else .mismatch
  | _, _ => .none

/-- The LANE waiver is given; with no plan it is not (R4). -/
def Device.laneWaived (d : Device) : Bool :=
  match d.cu.plan with
  | none => false
  | some plan => plan.laneWaiver

/-- The condition of HEAT apart from the phase: a plan is stored without HEAT waiver, M is above 0 and HEAT reached is
clear (R97). -/
def Device.heatHolds (d : Device) : Bool :=
  match d.cu.plan with
  | none => false
  | some plan => !plan.heatWaiver && decide (0 < plan.minutes) && !d.hp.reached

/-! ### Faults (R56 to R60) -/

/-- The code of a class (Table 62), its bit in the restrictive class set. -/
def FaultClass.code : FaultClass → Nat
  | .body => 0
  | .drivetrain => 1
  | .brakes => 2
  | .doors => 3
  | .lighting => 4
  | .heater => 5
  | .other => 6

/-- A record is blocking: ACTIVE, and severity 3, or severity 2 with its class in the restrictive class set (R56). -/
def FaultRecord.blocking (restrictive : BitVec 7) (r : FaultRecord) : Bool :=
  r.active && (r.severity == 3 || (r.severity == 2 && restrictive.getLsbD r.cls.code))

/-- The condition of FAULT_STOP (R59). -/
def Device.faultStops (d : Device) : Bool :=
  d.ftu.table.any (fun e => e.record.blocking d.conf.restrictive) || d.ftu.blockingDropped

/-- The heat lockout signal: an ACTIVE HEATER entry of severity 2 or 3 (R57). -/
def Ftu.heatLockout (ftu : Ftu) : Bool :=
  ftu.table.any fun e => e.record.active && e.record.cls == .heater && decide (2 ≤ e.record.severity)

/-- A coach channel is in the corroboration set: an ACTIVE LIGHTING entry names it (R58). -/
def Ftu.corroborates (ftu : Ftu) (channel : Nat) : Bool :=
  ftu.table.any fun e => e.record.active && e.record.cls == .lighting && e.record.hint == some channel

/-! ### Lamps (R79 to R81) -/

/-- OPEN, SHORT and PARTIAL are the failure statuses (Table 28). -/
def LampStatus.failed : LampStatus → Bool
  | .opened | .short | .partly => true
  | .off | .initial | .unjudged | .pass => false

/-- Neither judged good nor judged failed: INITIAL or UNJUDGED (R79). -/
def LampStatus.unknown : LampStatus → Bool
  | .initial | .unjudged => true
  | .off | .pass | .opened | .short | .partly => false

/-- A channel that is not OFF is fitted (Table 28). -/
def Channel.fitted (c : Channel) : Bool := c.status != .off

/-- Channels 1..16 are the coach's. -/
def Channel.ofCoach (c : Channel) : Bool := decide (c.num ≤ 16)

/-- The profile entry of a coach channel. -/
def CoachIdentity.entry (id : CoachIdentity) (num : Nat) : ProfileEntry :=
  id.profile.getD (num - 1) ⟨false, false, 1⟩

/-- A coach channel of category MANDATORY. -/
def Device.mandatory (d : Device) (c : Channel) : Bool :=
  c.ofCoach && match d.identity with
    | none => false
    | some id => (id.entry c.num).mandatory

/-- The condition of LAMP_PENDING (R79). -/
def Device.lampsPend (d : Device) : Bool :=
  d.ltu.channels.any (fun c => c.fitted && d.mandatory c && c.status.unknown) || d.ltu.ageTimer.isNone

/-- The condition of LAMP_FAIL (R80). -/
def Device.lampsFail (d : Device) : Bool :=
  d.ltu.channels.any fun c => c.fitted && d.mandatory c && c.status.failed && !c.masked

/-- The condition of SIGNAL_FAIL: RED or GREEN has a failure status (R81). -/
def Ltu.signalFails (ltu : Ltu) : Bool :=
  ltu.channels.any fun c => (c.num == 17 || c.num == 19) && c.status.failed

/-! ### The way out (R123, R124) -/

/-- A position of a lane is announced VACANT: at least one unexpired entry names it, and all that do show VACANT
(R123). -/
def announcedVacant (peers : List PeerEntry) (lane position : Nat) : Bool :=
  peers.any (fun e => e.lane == lane && e.position == position)
    && peers.all (fun e => !(e.lane == lane && e.position == position) || e.phase == .vacant)

/-- The condition of LANE (R123). -/
def Device.laneHolds (d : Device) : Bool :=
  decide (2 ≤ d.conf.position) && !d.laneWaived
    && (List.range (d.conf.position - 1)).any fun k => !announcedVacant d.lu.peers d.conf.lane (k + 1)

/-- The own lane is in the hold lane set (R124). -/
def Device.holdHolds (d : Device) : Bool := d.cu.holdLanes.getLsbD (d.conf.lane - 1)

/-! ### The block set (R120, Table 46) -/

/-- The block set that the state at this moment gives. A block is absent in the phases that Table 46 excludes. -/
def Device.evalBlocks (d : Device) : Blocks where
  noPlan := d.cu.phase.withCoach && d.cu.plan.isNone
  planMismatch := d.cu.phase.withCoach && d.cu.matchState == .mismatch
  heat := d.cu.phase.withCoach && d.heatHolds
  lampPending := d.cu.phase.withCoach && d.lampsPend
  lampFail := d.cu.phase.withCoach && d.lampsFail
  signalFail := d.ltu.signalFails
  faultPending := d.cu.phase.withCoach && d.ftu.ageTimer.isNone
  faultStop := d.cu.phase.withCoach && d.faultStops
  link := d.cu.phase.withCoach && !d.clc.linkUp
  lane := d.cu.phase.withCoach && d.laneHolds
  hold := d.cu.phase.withCoach && d.holdHolds
  station := d.sc.mode == .conflict

/-- A preparation block is present (Table 46). -/
def Blocks.preparation (b : Blocks) : Bool :=
  b.noPlan || b.planMismatch || b.heat || b.lampPending || b.lampFail || b.signalFail || b.faultPending
    || b.faultStop || b.link

/-- A departure-path block is present (Table 46). -/
def Blocks.departurePath (b : Blocks) : Bool := b.lane || b.hold || b.station

/-- A revoking block is present (Table 46). -/
def Blocks.revoking (b : Blocks) : Bool :=
  b.noPlan || b.planMismatch || b.lampFail || b.signalFail || b.faultStop || b.lane || b.hold || b.station

/-! ### Section content (R13, Table 13) -/

/-- The PHASE content that is compared across an event. Changes of the plan are marked where they are made (R5). -/
def Device.samePhaseContent (a b : Device) : Bool :=
  decide (a.cu.phase = b.cu.phase) && decide (a.cu.blocks = b.cu.blocks)
    && decide (a.cu.matchState = b.cu.matchState)
    && ((a.cu.plan.map Plan.late).getD false == (b.cu.plan.map Plan.late).getD false)
    && decide (a.sc.mode = b.sc.mode) && decide (a.sc.alarms = b.sc.alarms)
    && decide (a.cu.holdLanes = b.cu.holdLanes)

/-- The WINDOW flag (R110, R111). -/
def Hcu.windowFlag (hcu : Hcu) : Bool := hcu.window != .none

/-- The HEAT content that is compared across an event: Q, G, s and the seven heat flags. -/
def Device.sameHeatContent (a b : Device) : Bool :=
  a.hp.q == b.hp.q && a.hcu.grant == b.hcu.grant && a.hcu.stage == b.hcu.stage && a.hp.short == b.hp.short
    && a.hp.unreachable == b.hp.unreachable && a.hcu.faultLockout == b.hcu.faultLockout
    && a.hcu.overLockout == b.hcu.overLockout && a.hp.stale == b.hp.stale && a.hcu.shedFlag == b.hcu.shedFlag
    && a.hcu.windowFlag == b.hcu.windowFlag

/-- What of a channel is LAMP content: its status and its four flags. -/
def Channel.content (c : Channel) : Nat × LampStatus × Bool × Bool × Bool × Bool :=
  (c.num, c.status, c.masked, c.coachReported, c.confirmed, c.isFinal)

/-- The LAMP content that is compared across an event. -/
def Device.sameLampContent (a b : Device) : Bool :=
  decide (a.ltu.channels.map Channel.content = b.ltu.channels.map Channel.content)

/-- What of an entry is FAULT content: that it stands in the table, its state, severity, class and blocking value. -/
def FaultEntry.content (restrictive : BitVec 7) (e : FaultEntry) : Nat × Nat × FaultClass × Nat × Bool × Bool :=
  (e.record.module, e.record.code, e.record.cls, e.record.severity, e.record.active,
    e.record.blocking restrictive)

/-- The FAULT content that is compared across an event. -/
def Device.sameFaultContent (a b : Device) : Bool :=
  decide (a.ftu.table.map (FaultEntry.content a.conf.restrictive) =
      b.ftu.table.map (FaultEntry.content b.conf.restrictive))
    && a.ftu.blockingDropped == b.ftu.blockingDropped && a.ftu.overflow == b.ftu.overflow

end Sys2Proof.Machine
end

