-- ==== Sys2Proof/Machine/Formats.lean ====
section
/-! DEFINITION. What the station puts on its lines: the CRC, the encoding of fields, the NOTICE and LIST payloads, the
frames of the Depot Line and the requests of the Coach Link (R21, R140, R169, Chapter 11). -/

namespace Sys2Proof.Machine

/-! ### CRC (R21, R169) -/

/-- One shift of the register; a 1 shifted out combines it with 0x2F. -/
def crcShift (r : Byte) : Byte := if r.msb then (r <<< 1) ^^^ 0x2F#8 else r <<< 1

/-- `n` shifts of the register. -/
def crcShifts : Nat → Byte → Byte
  | 0, r => r
  | n + 1, r => crcShifts n (crcShift r)

/-- The register after one more covered byte. -/
def crcByte (r b : Byte) : Byte := crcShifts 8 (r ^^^ b)

/-- The CRC of the covered bytes, in order. -/
def crc8 (bytes : List Byte) : Byte := bytes.foldl crcByte 0xFF#8

/-! ### Fields (R169) -/

/-- A one-byte field. -/
def byteOf (n : Nat) : Byte := BitVec.ofNat 8 n

/-- A two-byte field, least significant byte first. -/
def wordOf (n : Nat) : List Byte := [byteOf n, byteOf (n / 256)]

/-- A three-byte field, least significant byte first. -/
def tripleOf (n : Nat) : List Byte := [byteOf n, byteOf (n / 256), byteOf (n / 65536)]

/-- A signed one-byte field in two's complement. -/
def signedByteOf (x : Int) : Byte := BitVec.ofInt 8 x

/-- A signed two-byte field in two's complement, least significant byte first. -/
def signedWordOf (x : Int) : List Byte := wordOf (BitVec.ofInt 16 x).toNat

/-- The weight of bit `n` when a flag is set. -/
def flagAt (n : Nat) (b : Bool) : Nat := if b then 2 ^ n else 0

/-! ### Codes (Table 62) -/

/-- Code of a mode. -/
def Mode.code : Mode → Nat
  | .start => 0
  | .halt => 1
  | .listen => 2
  | .run => 3
  | .isolated => 4
  | .conflict => 5

/-- Code of a phase. -/
def Phase.code : Phase → Nat
  | .vacant => 0
  | .coupling => 1
  | .coupled => 2
  | .preparing => 3
  | .ready => 4
  | .clearing => 5
  | .cleared => 6
  | .departing => 7

/-- Code of a match state. -/
def MatchState.code : MatchState → Nat
  | .none => 0
  | .matched => 1
  | .mismatch => 2

/-- Code of a section status. -/
def SectionStatus.code : SectionStatus → Nat
  | .off => 0
  | .initial => 1
  | .clean => 2
  | .dirty => 3

/-- Code of a cabin temperature state. -/
def TcState.code : TcState → Nat
  | .none => 0
  | .current => 1
  | .held => 2
  | .stale => 3

/-- Code of a lamp status. -/
def LampStatus.code : LampStatus → Nat
  | .off => 0
  | .initial => 1
  | .unjudged => 2
  | .pass => 3
  | .opened => 4
  | .short => 5
  | .partly => 6

/-- Code of a read ending. -/
def ReadEnding.code : ReadEnding → Nat
  | .none => 0
  | .complete => 1
  | .incomplete => 2
  | .aborted => 3

/-- Code of a query subject. -/
def Subject.code : Subject → Nat
  | .lamps => 1
  | .faults => 2
  | .heat => 3
  | .line => 4

/-- The block set as bits 0..11. -/
def Blocks.code (b : Blocks) : Nat :=
  flagAt 0 b.noPlan + flagAt 1 b.planMismatch + flagAt 2 b.heat + flagAt 3 b.lampPending + flagAt 4 b.lampFail
    + flagAt 5 b.signalFail + flagAt 6 b.faultPending + flagAt 7 b.faultStop + flagAt 8 b.link + flagAt 9 b.lane
    + flagAt 10 b.hold + flagAt 11 b.station

/-- The alarm set as bits 0..7. -/
def Alarms.code (a : Alarms) : Nat :=
  flagAt 0 a.pullout + flagAt 1 a.overcurrent + flagAt 2 a.contactorFail + flagAt 3 a.linkLost
    + flagAt 4 a.signalRedFail + flagAt 5 a.numberConflict + flagAt 6 a.shedLineFault + flagAt 7 a.probeFault

/-- The heat flags as bits 0..6. -/
def Device.heatFlags (d : Device) : Nat :=
  flagAt 0 d.hp.short + flagAt 1 d.hp.unreachable + flagAt 2 d.hcu.faultLockout + flagAt 3 d.hcu.overLockout
    + flagAt 4 d.hp.stale + flagAt 5 d.hcu.shedFlag + flagAt 6 d.hcu.windowFlag

/-! ### NOTICE (R149, Table 63) -/

/-- Tc as it is carried: 0 with no last STATUS. -/
def Clc.tcShown (clc : Clc) : Int :=
  match clc.lastStatus with
  | none => 0
  | some status => status.tc

/-- M as it is carried: 0xFFFF with no plan (R11). -/
def Cu.minutesShown (cu : Cu) : Nat :=
  match cu.plan with
  | none => 65535
  | some plan => plan.minutes

/-- The LATE flag of the stored plan. -/
def Cu.late (cu : Cu) : Bool :=
  match cu.plan with
  | none => false
  | some plan => plan.late

/-- The 16 payload bytes of a NOTICE drawn from the state as it stands. -/
def Device.noticePayload (d : Device) : List Byte :=
  [byteOf d.conf.lane,
    byteOf (d.conf.position + 16 * d.sc.mode.code),
    byteOf (d.cu.phase.code + 16 * d.cu.matchState.code + flagAt 6 d.cu.late)]
    ++ wordOf d.cu.blocks.code
    ++ [byteOf d.sc.alarms.code,
      byteOf (d.sc.phase.status.code + 4 * d.sc.heat.status.code + 16 * d.sc.lamp.status.code
        + 64 * d.sc.fault.status.code)]
    ++ wordOf d.cu.minutesShown
    ++ [byteOf d.hp.q, byteOf d.hcu.grant, byteOf (d.hcu.stage + 16 * d.clc.tcState.code)]
    ++ signedWordOf d.hp.slack
    ++ [byteOf d.heatFlags, signedByteOf d.clc.tcShown]

/-- The snapshot of a NOTICE (R149). -/
def Device.snapshot (d : Device) : Snapshot where
  payload := d.noticePayload
  phase := d.cu.phase
  minutes := d.cu.plan.map Plan.minutes
  q := d.hp.q
  phaseStatus := d.sc.phase.status
  heatStatus := d.sc.heat.status
  lampStatus := d.sc.lamp.status
  faultStatus := d.sc.fault.status

/-! ### Frames of the Depot Line (R140, Table 51) -/

/-- The bytes of a frame: PRE, KIND, FROM, TO, LEN, payload, CRC. -/
def lineFrame (kind sender dest : Nat) (payload : List Byte) : List Byte :=
  [0x55#8] ++ ([byteOf kind, byteOf sender, byteOf dest, byteOf payload.length] ++ payload)
    ++ [crc8 ([byteOf kind, byteOf sender, byteOf dest, byteOf payload.length] ++ payload)]

/-- The bytes that every attempt of a frame sends (R149): NOTICE is kind 1 to all, LIST kind 5 to the requester. -/
def FlightContent.bytes (station : Nat) : FlightContent → List Byte
  | .notice snap => lineFrame 1 station 0 snap.payload
  | .list frame => lineFrame 5 station frame.dest frame.payload

/-- The bits of a byte in the order in which a line carries them: a start bit 0, the data bits with the least significant
first, a stop bit 1 (R139, and the bytes of the Coach Link in 02_coach_link_and_coupling.md, 2.1). -/
def byteBits (b : Byte) : List Bool :=
  [false] ++ (List.range 8).map (fun k => b.getLsbD k) ++ [true]

/-- The bits of an unbroken run of bytes, each byte following the stop bit of the one before (R21, R140). -/
def lineBits (bytes : List Byte) : List Bool := bytes.flatMap byteBits

/-! ### LIST entries (R61, R82, R117, R153, R165, Tables 65 and 66) -/

/-- A LAMPS entry. -/
def Channel.entryBytes (c : Channel) : List Byte :=
  [byteOf (c.status.code + flagAt 4 c.masked + flagAt 5 c.coachReported + flagAt 6 c.confirmed + flagAt 7 c.isFinal)]
    ++ wordOf c.lastV ++ [byteOf c.lastI, byteOf c.retries]

/-- A FAULTS entry. -/
def FaultEntry.entryBytes (restrictive : BitVec 7) (e : FaultEntry) : List Byte :=
  [byteOf (e.record.module + 64 * e.record.severity),
    byteOf (e.record.cls.code + flagAt 3 e.record.active + flagAt 4 (e.record.blocking restrictive)
      + flagAt 5 e.seen)]
    ++ wordOf e.record.code ++ [byteOf e.record.occurrences, byteOf (e.record.hint.getD 0)]

/-- Seconds since the last COMPLETE ending, held at 2046; 2047 while there is none (R61). Whole seconds, rounded down:
DESIGN CHOICE (log entry 33), unsafe. -/
def Device.secondsSinceComplete (d : Device) : Nat :=
  match d.ftu.lastComplete with
  | none => 2047
  | some t => min 2046 ((d.clock - t) / Config.second)

/-- The read summary of R61 in its three bytes. -/
def Device.readSummary (d : Device) : List Byte :=
  wordOf (d.secondsSinceComplete + flagAt 11 d.ftu.read.isSome + 4096 * d.ftu.lastEnding.code
    + flagAt 14 d.ftu.reread + flagAt 15 d.ftu.blockingDropped)
    ++ [byteOf d.ftu.overflow]

/-- A value that reads 0 with no identity held (R3, R165). -/
def Device.ofIdentity (d : Device) (n : Nat) : Nat := if d.identity.isSome then n else 0

/-- The HEAT entry (Table 66). -/
def Device.heatEntry (d : Device) : List Byte :=
  [signedByteOf d.clc.tcShown,
    byteOf (d.clc.tcState.code + 4 * d.ofIdentity d.hcu.stage + flagAt 5 d.hcu.sat
      + flagAt 6 ((d.identity.map CoachIdentity.clamped).getD false) + flagAt 7 d.hp.reached),
    signedByteOf d.hp.toInUse,
    signedByteOf ((d.cu.plan.map Plan.target).getD 0)]
    ++ tripleOf (d.ofIdentity d.hp.ew) ++ tripleOf (d.ofIdentity d.hp.p)
    ++ [byteOf (d.ofIdentity d.hp.q), byteOf (d.ofIdentity d.hcu.grant), byteOf (d.ofIdentity d.hcu.announced)]
    ++ signedWordOf d.hp.slack ++ wordOf (d.ofIdentity d.hp.tf)
    ++ [byteOf d.heatFlags] ++ tripleOf (d.hcu.energy / 1000)

/-- The LINE entry. -/
def Stats.entryBytes (st : Stats) : List Byte :=
  wordOf st.format ++ wordOf st.gap ++ wordOf st.collisions ++ wordOf st.dropped ++ wordOf st.unauthorised

/-- The entries of a subject as they stand, in index order (Table 60). -/
def Device.subjectEntries (d : Device) : Subject → List (List Byte)
  | .lamps => d.ltu.channels.map Channel.entryBytes
  | .faults => d.ftu.table.map (FaultEntry.entryBytes d.conf.restrictive)
  | .heat => [d.heatEntry]
  | .line => [d.lu.stats.entryBytes]

/-- Entries per LIST (Table 60). -/
def Subject.limit : Subject → Nat
  | .lamps => 4
  | .faults => 3
  | .heat => 1
  | .line => 1

/-- The total of a subject at this moment (R165). -/
def Device.subjectTotal (d : Device) (subject : Subject) : Nat := (d.subjectEntries subject).length

/-- Entries of the LIST frame from index `first` on. -/
def Device.listCount (d : Device) (subject : Subject) (first : Nat) : Nat :=
  min subject.limit (d.subjectTotal subject - first)

/-- The read summary goes with each FAULTS frame (Table 60). -/
def Device.listSummary (d : Device) : Subject → List Byte
  | .faults => d.readSummary
  | .lamps | .heat | .line => []

/-- The LIST frame that carries the entries from index `first` on, built as things stand (R165). -/
def Device.buildList (d : Device) (reply : Reply) : ListFrame where
  dest := reply.requester
  subject := reply.subject
  first := reply.next
  total := d.subjectTotal reply.subject
  payload :=
    [byteOf reply.subject.code, byteOf reply.next, byteOf (d.subjectTotal reply.subject)]
      ++ d.listSummary reply.subject
      ++ (((d.subjectEntries reply.subject).drop reply.next).take reply.subject.limit).flatten

/-! ### Requests of the Coach Link (R21, Table 67) -/

/-- The TYPE of a request. -/
def Request.type : Request → Nat
  | .identify => 1
  | .getProfile => 2
  | .poll => 3
  | .openRead _ _ => 4
  | .fetch _ => 5

/-- The payload of a request. -/
def Request.payload : Request → List Byte
  | .identify | .getProfile | .poll => []
  | .openRead start budget => [byteOf start, byteOf budget]
  | .fetch toggle => [byteOf (flagAt 0 toggle)]

/-- The bytes of a request: LEAD, TYPE, LEN, payload, CRC. Every attempt sends them unchanged (R24). -/
def Request.bytes (r : Request) : List Byte :=
  [0x3C#8] ++ ([byteOf r.type, byteOf r.payload.length] ++ r.payload)
    ++ [crc8 ([byteOf r.type, byteOf r.payload.length] ++ r.payload)]

end Sys2Proof.Machine
end

