-- ==== Sys2Proof/Machine/Operands.lean ====
section
/-! DEFINITION. The operands of the commands as the station takes them: payload fields by the tables of Chapter 11,
clamped as R1, R5, R25, R52, R151 and R156 state. -/

namespace Sys2Proof.Machine

/-! ### Bytes and fields (R169) -/

/-- Byte `i` of a payload. -/
def byteAt (payload : List Byte) (i : Nat) : Nat := (payload.getD i 0#8).toNat

/-- The two-byte field at offset `i`, least significant byte first. -/
def wordAt (payload : List Byte) (i : Nat) : Nat := byteAt payload i + 256 * byteAt payload (i + 1)

/-- The signed two-byte field at offset `i`, in two's complement. -/
def signedAt (payload : List Byte) (i : Nat) : Int :=
  if wordAt payload i < 32768 then (wordAt payload i : Int) else (wordAt payload i : Int) - 65536

/-- The field of `width` bits from bit `low` of byte `i`. -/
def bitsAt (payload : List Byte) (i low width : Nat) : Nat := byteAt payload i / 2 ^ low % 2 ^ width

/-- Bit `bit` of byte `i`. -/
def bitAt (payload : List Byte) (i bit : Nat) : Bool := bitsAt payload i bit 1 == 1

/-! ### Codes (Table 62, R170) -/

/-- The phase a code names. -/
def Phase.ofCode : Nat → Option Phase
  | 0 => some .vacant
  | 1 => some .coupling
  | 2 => some .coupled
  | 3 => some .preparing
  | 4 => some .ready
  | 5 => some .clearing
  | 6 => some .cleared
  | 7 => some .departing
  | _ => none

/-- The mode a code names. -/
def Mode.ofCode : Nat → Option Mode
  | 0 => some .start
  | 1 => some .halt
  | 2 => some .listen
  | 3 => some .run
  | 4 => some .isolated
  | 5 => some .conflict
  | _ => none

/-- The fault class a code names; a code that names none is taken as OTHER (R52). -/
def FaultClass.ofCode : Nat → FaultClass
  | 0 => .body
  | 1 => .drivetrain
  | 2 => .brakes
  | 3 => .doors
  | 4 => .lighting
  | 5 => .heater
  | _ => .other

/-! ### Coach identity (R1, R2, Table 8, Table 67) -/

/-- Profile entry of one byte: fitted, category with codes other than ADVISORY taken as MANDATORY, n to 1..8. -/
def profileEntry (payload : List Byte) (i : Nat) : ProfileEntry :=
  ⟨bitAt payload i 0, bitsAt payload i 1 2 != 1, clampNat 1 8 (bitsAt payload i 4 4)⟩

/-- The profile entry was clamped: a category code that names none, or an n outside 1..8 (R2). -/
def profileEntryClamped (payload : List Byte) (i : Nat) : Bool :=
  decide (1 < bitsAt payload i 1 2) || clampNat 1 8 (bitsAt payload i 4 4) != bitsAt payload i 4 4

/-- The indices of the 16 profile bytes. -/
def profileIndices : List Nat := List.range 16

/-- The identity of an IDENTITY and a PROFILE reply, each field clamped as Table 8 shows. -/
def readIdentity (idn profile : List Byte) : CoachIdentity where
  number := clampNat 1 65535 (wordAt idn 0)
  capacity := clampNat 100 2500 (wordAt idn 2)
  loss := clampNat 20 1000 (wordAt idn 4)
  rating := clampNat 4 160 (byteAt idn 6)
  stages := clampNat 1 7 (byteAt idn 7)
  vf := clampNat 20 36 (byteAt idn 8)
  profile := profileIndices.map (profileEntry profile)
  clamped :=
    clampNat 1 65535 (wordAt idn 0) != wordAt idn 0 || clampNat 100 2500 (wordAt idn 2) != wordAt idn 2
      || clampNat 20 1000 (wordAt idn 4) != wordAt idn 4 || clampNat 4 160 (byteAt idn 6) != byteAt idn 6
      || clampNat 1 7 (byteAt idn 7) != byteAt idn 7 || clampNat 20 36 (byteAt idn 8) != byteAt idn 8
      || profileIndices.any (profileEntryClamped profile)

/-- The fault-memory change count of an IDENTITY reply (Table 67). -/
def identityChangeCount (idn : List Byte) : Nat := byteAt idn 9

/-! ### STATUS, OPENED, RECORDS (R25, R52, Table 67) -/

/-- The cabin temperature of a STATUS, taken to the nearer end of -80..100 (R25). -/
def statusTc (payload : List Byte) : Int := clampInt (-80) 100 (signedAt payload 0)

/-- The change count of a STATUS. -/
def statusChangeCount (payload : List Byte) : Nat := byteAt payload 2

/-- The available count of an OPENED; above 96 it is taken as 96 (R25). -/
def openedAvailable (payload : List Byte) : Nat := min 96 (byteAt payload 0)

/-- The toggle of a RECORDS frame. -/
def recordsToggle (payload : List Byte) : Bool := bitAt payload 0 0

/-- The end flag of a RECORDS frame. -/
def recordsEnd (payload : List Byte) : Bool := bitAt payload 0 1

/-- The LEN of a RECORDS frame fits 0, 1 or 2 records (R25). -/
def recordsLength (n : Nat) : Bool := n == 1 || n == 9 || n == 17

/-- The channel hint of a record: 1..16 on a LIGHTING record, otherwise absent (R52). -/
def recordHint (cls : FaultClass) (hint : Nat) : Option Nat :=
  if cls = .lighting ∧ 1 ≤ hint ∧ hint ≤ 16 then some hint else none

/-- The clamped record whose 8 bytes begin at offset `i` (R52). -/
def recordAt (payload : List Byte) (i : Nat) : FaultRecord where
  module := min 63 (byteAt payload i)
  cls := FaultClass.ofCode (byteAt payload (i + 1))
  code := wordAt payload (i + 2)
  severity := min 3 (byteAt payload (i + 4))
  active := byteAt payload (i + 5) != 0
  occurrences := byteAt payload (i + 6)
  hint := recordHint (FaultClass.ofCode (byteAt payload (i + 1))) (byteAt payload (i + 7))

/-- The records of a RECORDS frame, in the order the frame carries them. -/
def recordsOf (payload : List Byte) : List FaultRecord :=
  (List.range ((payload.length - 1) / 8)).map fun k => recordAt payload (1 + 8 * k)

/-! ### Depot Line payloads (Tables 63 and 64) -/

/-- The M a NOTICE or a plan field carries: 0xFFFF for none. -/
def noticeMinutes (payload : List Byte) : Option Nat :=
  if wordAt payload 7 = 65535 then none else some (wordAt payload 7)

/-- The check of a NOTICE: lane, position, phase code, mode code and M in their ranges (R151, R170). -/
def noticeOk (payload : List Byte) : Bool :=
  decide (1 ≤ byteAt payload 0 ∧ byteAt payload 0 ≤ 16)
    && decide (1 ≤ bitsAt payload 1 0 3 ∧ bitsAt payload 1 0 3 ≤ 4)
    && (Phase.ofCode (bitsAt payload 2 0 4)).isSome && (Mode.ofCode (bitsAt payload 1 4 3)).isSome
    && decide (wordAt payload 7 ≤ 1080 ∨ wordAt payload 7 = 65535)

/-- The Peer Table entry a NOTICE makes, Q and slack clamped (R151), with the previous phase given and heard now. -/
def noticeEntry (station : Nat) (payload : List Byte) (previous : Option Phase) (now : Nat) : PeerEntry where
  station := station
  lane := byteAt payload 0
  position := bitsAt payload 1 0 3
  phase := (Phase.ofCode (bitsAt payload 2 0 4)).getD .vacant
  previous := previous
  mode := (Mode.ofCode (bitsAt payload 1 4 3)).getD .start
  q := min 160 (byteAt payload 9)
  slack := clampInt (-1080) 1080 (signedAt payload 12)
  minutes := noticeMinutes payload
  heard := now

/-- The plan of a PLAN payload as it is stored: Tt to 20..48, M to at most 1080, LATE clear (R5). -/
def readPlan (payload : List Byte) : Plan where
  coach := wordAt payload 0
  minutes := min 1080 (wordAt payload 2)
  target := (clampNat 20 48 (byteAt payload 4) : Nat)
  heatWaiver := bitAt payload 5 1
  laneWaiver := bitAt payload 5 2
  mask := BitVec.ofNat 16 (wordAt payload 6)
  late := false

/-- The hold lane set of a HOLD payload, bit 0 for lane 1. -/
def readLanes (payload : List Byte) : BitVec 16 := BitVec.ofNat 16 (wordAt payload 0)

/-- The alarms an ACKNOWLEDGE payload names (Table 62, bits 0..7). -/
def readAlarms (payload : List Byte) : Alarms where
  pullout := bitAt payload 0 0
  overcurrent := bitAt payload 0 1
  contactorFail := bitAt payload 0 2
  linkLost := bitAt payload 0 3
  signalRedFail := bitAt payload 0 4
  numberConflict := bitAt payload 0 5
  shedLineFault := bitAt payload 0 6
  probeFault := bitAt payload 0 7

/-- LEN of a frame whose kind fixes it (Table 51). -/
def lengthIs (payload : List Byte) (n : Nat) : Bool := payload.length == n

/-! ### Configuration image (R155, R156, Tables 56 and 68) -/

/-- An item with a default for the erased byte. -/
def erasedOr (default top b : Nat) : Nat := if b = 255 then default else min top b

/-- The feeder budget B of an image. -/
def imageBudget (image : List Byte) : Nat := min 4000 (wordAt image 5)

/-- The clamped values of a configuration image. -/
def readConfig (image : List Byte) : StationConfig where
  station := min 63 (byteAt image 0)
  lane := min 16 (byteAt image 1)
  position := clampNat 1 4 (byteAt image 2)
  dispatch1 := min 63 (byteAt image 3)
  dispatch2 := min 63 (byteAt image 4)
  budget := imageBudget image
  fairShare := min (imageBudget image) (wordAt image 7)
  windowAllowance := erasedOr 8 40 (byteAt image 9)
  spacing := erasedOr 45 120 (byteAt image 10)
  releaseLead := erasedOr 5 30 (byteAt image 11)
  restrictive := BitVec.ofNat 7 (byteAt image 12)
  redFitted := bitAt image 13 0
  amberFitted := bitAt image 13 1
  greenFitted := bitAt image 13 2
  signalLeds := clampNat 1 8 (byteAt image 14)
  signalVf := clampNat 20 36 (byteAt image 15)
  presenceFitted := bitAt image 16 0
  currentFitted := bitAt image 16 1

end Sys2Proof.Machine
end

