-- ==== Sys2Proof/Machine/Heat.lean ====
section
/-! DEFINITION. Shared operations of the Heat Planner and the Heater Control Unit: the demand arithmetic, the grant, the
target stage and its caps, the lowering of the stage, the ramp, the measurement window, the current monitor and the
energy counter (Chapters 5 and 6). -/

namespace Sys2Proof.Machine

/-! ### Demand arithmetic (R87 to R92) -/

/-- Ew in kJ: ceiling(C × max(ΔT, 0) / 2) (R87). -/
def warmingEnergy (capacity : Nat) (deltaT : Int) : Nat := ceilDiv (capacity * deltaT.toNat) 2

/-- Pm in watts: ceiling(L × max(Tt − To, 0) / 2) (R88). -/
def holdingPower (loss : Nat) (target outside : Int) : Nat := ceilDiv (loss * (target - outside).toNat) 2

/-- Pw in watts: ceiling(Ew × 1000 / t) with t = 60 × max(M, 1) (R89). -/
def warmingPower (ew minutes : Nat) : Nat := ceilDiv (ew * 1000) (60 * max minutes 1)

/-- Qraw in claim units: ceiling(P / 250) (R90). -/
def rawClaim (p : Nat) : Nat := ceilDiv p 250

/-- Pfull in watts (R91). -/
def fullPower (rating : Nat) : Nat := rating * 250

/-- UNREACHABLE: energy is wanted and full rating cannot overcome the losses (R91). -/
def cannotReach (ew pm rating : Nat) : Bool := decide (0 < ew) && decide (fullPower rating ≤ pm)

/-- tf in minutes (R91). -/
def reachTime (ew pm rating : Nat) : Nat :=
  if ew = 0 then 0
  else if fullPower rating ≤ pm then 1080
  else min 1080 (ceilDiv (ew * 1000) ((fullPower rating - pm) * 60))

/-- The slack: M less tf, or +1080 while UNREACHABLE is set (R92). -/
def slackOf (minutes ew pm rating : Nat) : Int :=
  if cannotReach ew pm rating then 1080 else (minutes : Int) - (reachTime ew pm rating : Int)

/-- The idle values of a tick at which the HP does not run (R84). To in use, the probe's last good value and HEAT
reached are not among them. -/
def Hp.idle (hp : Hp) : Hp :=
  { hp with q := 0, slack := 1080, deltaT := 0, ew := 0, pm := 0, pw := 0, p := 0, tf := 0, short := false,
            unreachable := false, stale := false }

/-- The tick of an HP without a usable cabin temperature: Pm and P = Pm are computed, the rest idle, STALE set, Q 0
(R93). -/
def Hp.withoutTc (hp : Hp) (id : CoachIdentity) (plan : Plan) : Hp :=
  { hp.idle with stale := true, pm := holdingPower id.loss plan.target hp.toInUse,
                 p := holdingPower id.loss plan.target hp.toInUse }

/-- The full computation from a usable cabin temperature (R87 to R92), Q forced to 0 under a lockout (R93). -/
def Hp.computed (hp : Hp) (id : CoachIdentity) (plan : Plan) (tc : Int) (lockout : Bool) : Hp :=
  let deltaT := plan.target - tc
  let ew := warmingEnergy id.capacity deltaT
  let pm := holdingPower id.loss plan.target hp.toInUse
  let pw := warmingPower ew plan.minutes
  { hp with
    deltaT := deltaT, ew := ew, pm := pm, pw := pw, p := pw + pm,
    q := if lockout then 0 else min (rawClaim (pw + pm)) id.rating,
    short := decide (id.rating < rawClaim (pw + pm)),
    unreachable := cannotReach ew pm id.rating,
    tf := reachTime ew pm id.rating,
    slack := slackOf plan.minutes ew pm id.rating,
    stale := false }

/-- A lockout is set (R114). -/
def Hcu.locked (hcu : Hcu) : Bool := hcu.faultLockout || hcu.overLockout

/-- The three conditions under which the HP runs (R84). -/
def Device.hpRuns (d : Device) : Bool :=
  d.cu.phase.prepared && d.cu.matchState == .matched && d.sc.mode.heats

/-- The cabin temperature the HP may use: the last Tc in CURRENT and HELD (R35, R85). -/
def Clc.usableTc (clc : Clc) : Option Int :=
  match clc.tcState with
  | .current | .held => clc.lastStatus.map LastStatus.tc
  | .none | .stale => none

/-- The HP's values of one tick, with To in use already read (R84 to R93). -/
def Device.hpValues (d : Device) : Hp :=
  match d.hpRuns, d.cu.plan, d.identity with
  | true, some plan, some id =>
    match d.clc.usableTc with
    | some tc => d.hp.computed id plan tc d.hcu.locked
    | none => d.hp.withoutTc id plan
  | _, _, _ => d.hp.idle

/-- A probe reading within −90..+110 half-degrees is good (R86). -/
def probeGood (reading : Int) : Bool := decide (-90 ≤ reading) && decide (reading ≤ 110)

/-- The probe read at a claim tick: To in use (R86) and PROBE_FAULT (R18). -/
def Device.readProbe (d : Device) (reading : Int) : Device :=
  if probeGood reading then
    d.onHp fun hp =>
      { hp with toInUse := clampInt (-80) 100 reading, probeLast := some (clampInt (-80) 100 reading) }
  else
    (d.onHp fun hp => { hp with toInUse := hp.probeLast.getD (-60) }).onAlarms fun a => { a with probeFault := true }

/-- HEAT reached at a tick: set from Tc ≥ Tt − 2, cleared from Tc < Tt − 6 (R96). -/
def reachedAfter (reached : Bool) (tc target : Int) : Bool :=
  if reached then !decide (tc < target - 6) else decide (target - 2 ≤ tc)

/-- The evaluation of HEAT reached at a tick (R96). -/
def Device.evalReached (d : Device) : Device :=
  match d.cu.phase.identified, d.cu.plan, d.clc.usableTc with
  | true, some plan, some tc => d.onHp fun hp => { hp with reached := reachedAfter hp.reached tc plan.target }
  | _, _, _ => d

/-- The first tick at which the HP runs since HEAT became INITIAL is a change of HEAT content (R13, R94), found by the
model's own field `firstRun`: DEDUCED (log entry 28), safe. -/
def Device.markFirstRun (d : Device) : Device :=
  if d.hpRuns && d.hp.firstRun then (d.onHp fun hp => { hp with firstRun := false }).touchHeat else d

/-- The HP's work at a claim tick (R84 to R94, R96). -/
def Device.hpTick (d : Device) (reading : Int) : Device :=
  let d := d.readProbe reading
  let d := d.onHp fun _ => d.hpValues
  d.evalReached.markFirstRun

/-! ### Grant (R100, R101) -/

/-- A Peer Table entry is ahead of the own coach (R100). -/
def PeerEntry.ahead (e : PeerEntry) (slack : Int) (station : Nat) : Bool :=
  e.mode.heats && (decide (e.slack < slack) || (decide (e.slack = slack) && decide (e.station < station)))

/-- A: the sum of the claims of the ahead entries (R100). -/
def Device.claimsAhead (d : Device) : Nat :=
  ((d.lu.peers.filter fun e => e.ahead d.hp.slack d.conf.station).map PeerEntry.q).sum

/-- The grant of this tick (R101). -/
def Device.grantNow (d : Device) : Nat :=
  if d.sc.mode.heats then
    if d.sc.mode = .isolated ∨ d.sc.alarms.shedLineFault = true then min d.hp.q d.conf.fairShare
    else min d.hp.q (d.conf.budget - d.claimsAhead)
  else 0

/-! ### Target stage and caps (R102 to R104) -/

/-- The nominal power of stage `s` in watts (R102). -/
def nominalPower (rating stages s : Nat) : Nat := rating * 250 * s / stages

/-- The largest stage up to `s` whose nominal power is at most `limit` watts. -/
def stageWithin (rating stages limit : Nat) : Nat → Nat
  | 0 => 0
  | s + 1 => if nominalPower rating stages (s + 1) ≤ limit then s + 1 else stageWithin rating stages limit s

/-- The window stage (R103); 0 with no identity held. -/
def Device.windowStage (d : Device) : Nat :=
  match d.identity with
  | none => 0
  | some id => stageWithin id.rating id.stages (d.conf.windowAllowance * 250) id.stages

/-- A cap that holds the stage at 0: shed, lockout, mode, heat computation (R102). -/
def Device.capZero (d : Device) : Bool :=
  d.hcu.asserted || d.hcu.locked || !d.sc.mode.heats || !d.cu.phase.prepared || d.cu.matchState != .matched
    || d.identity.isNone

/-- The stage lowered by the window cap (R102, R103). -/
def Device.underWindow (d : Device) (s : Nat) : Nat := if d.hcu.windowFlag then min s d.windowStage else s

/-- The stage lowered by the rejoin cap (R102, R115). -/
def Device.underRejoin (d : Device) (s : Nat) : Nat :=
  match d.hcu.rejoinCap with
  | none => s
  | some cap => min s cap

/-- floor(G × S / Pr) (R102). -/
def Device.grantStage (d : Device) : Nat :=
  match d.identity with
  | none => 0
  | some id => d.hcu.grant * id.stages / id.rating

/-- The target stage s* from the grant and every cap in force (R102). -/
def Device.targetStage (d : Device) : Nat :=
  if d.capZero then 0 else d.underRejoin (d.underWindow d.grantStage)

/-- A pending raise above the new target is cleared (R104). -/
def keepRaise (target : Nat) : Option Nat → Option Nat
  | none => none
  | some s => if s ≤ target then some s else none

/-- The HCU lowered to a target: the stage and a pending raise above it follow (R104). -/
def Hcu.lowerTo (hcu : Hcu) (target : Nat) : Hcu :=
  { hcu with target := target, stage := min hcu.stage target, raise := keepRaise target hcu.raise }

/-- The HCU lowers the stage at once where a cap has come into force or become lower, to a target stage that this lowers;
a cap that ends between ticks raises nothing (R104). -/
def Device.capStage (d : Device) : Device := d.onHcu fun hcu => hcu.lowerTo (min hcu.target d.targetStage)

/-- A cap comes into force: the HCU works the target stage out again and lowers the stage to it at once (R102, R104). -/
def Device.takeCap (d : Device) : Device := d.onHcu fun hcu => hcu.lowerTo d.targetStage

/-- A condition that forces Q to 0 between ticks (R93). -/
def Device.claimForced (d : Device) : Bool :=
  !d.cu.phase.prepared || d.cu.matchState != .matched || !d.sc.mode.heats || d.clc.tcState == .stale || d.hcu.locked

/-- Q forced to 0 and with it G (R93, R104). -/
def Device.forceClaim (d : Device) : Device :=
  if d.claimForced then (d.onHp fun hp => { hp with q := 0 }).onHcu fun hcu => { hcu with grant := 0 } else d

/-! ### Claim tick of the HCU (R99, R105) -/

/-- The stage choice of a tick: lowered at once, or a pending raise of one step, none while the hold-off runs or the
shed sense is ASSERTED (R99 step 3, R105). -/
def Hcu.choose (hcu : Hcu) (target : Nat) : Hcu :=
  if target ≤ hcu.stage then { hcu with target := target, stage := target, raise := none }
  else if hcu.holdOff.isSome || hcu.asserted then { hcu with target := target, raise := none }
  else { hcu with target := target, raise := some (min target (hcu.stage + 1)) }

/-- Grant, target stage and stage of a tick (R99 steps 2 and 3). -/
def Device.hcuTick (d : Device) : Device :=
  let d := d.onHcu fun hcu => { hcu with grant := d.grantNow }
  d.onHcu fun hcu => hcu.choose d.targetStage

/-- The energy of stage `s` over one tick, in joules (R116). -/
def tickEnergy (id : CoachIdentity) (s : Nat) : Nat := id.rating * 500 * s / id.stages

/-- The energy counter after adding, saturating with SAT (R116). -/
def Hcu.addEnergy (hcu : Hcu) (joules : Nat) : Hcu :=
  if hcu.energy + joules ≤ Config.energyMax then { hcu with energy := hcu.energy + joules }
  else { hcu with energy := Config.energyMax, sat := true }

/-- The energy of the stage held when the tick fell is counted while an identity is held (R99 step 4, R116). -/
def Device.countEnergy (d : Device) (stage : Nat) : Device :=
  match d.identity with
  | none => d
  | some id => d.onHcu fun hcu => hcu.addEnergy (tickEnergy id stage)

/-! ### Announce, then draw (R106) -/

/-- The pending raise is covered by the announced claim and still at or below the target as the caps stand (R106). -/
def Device.raiseCovered (d : Device) (s : Nat) : Bool :=
  match d.identity with
  | none => false
  | some id => decide (id.rating * s ≤ d.hcu.announced * id.stages) && decide (s ≤ d.targetStage)

/-- A pending raise that is covered is applied (R106). -/
def Device.applyRaise (d : Device) : Device :=
  match d.hcu.raise with
  | none => d
  | some s => if d.raiseCovered s then d.onHcu fun hcu => { hcu with stage := s, raise := none } else d

/-- A completed NOTICE at the HCU: Qa takes the snapshot's claim, then a covered raise is applied (R106). -/
def Device.announce (d : Device) (claim : Nat) : Device :=
  (d.onHcu fun hcu => { hcu with announced := claim }).applyRaise

/-! ### Measurement window of the HCU (R110, R111) -/

/-- A window request at the HCU: EFFECTIVE at once when the stage already meets the window stage, otherwise the stage
is lowered and 100 ms of settling start (R110). The WINDOW flag makes it a change of HEAT content. -/
def Device.hcuWindowRequest (d : Device) : Device :=
  (if d.hcu.stage ≤ d.windowStage then
      (d.onHcu fun hcu => { hcu with window := .effective }).takeCap
    else
      (d.onHcu fun hcu => { hcu with window := .settling, settling := d.timer Config.windowSettling }).takeCap).touchHeat

/-- A window release at the HCU; with the state NONE it is ignored (R111). -/
def Device.hcuWindowRelease (d : Device) : Device :=
  if d.hcu.window = .none then d
  else (d.onHcu fun hcu => { hcu with window := .none, settling := none }).touchHeat

/-! ### Heater current monitor (R112, R113) -/

/-- The full power the monitor compares with (R112). -/
def Device.monitorFull (d : Device) : Nat :=
  match d.identity with
  | none => Config.powerWithoutIdentity
  | some id => fullPower id.rating

/-- The nominal power of the commanded stage. -/
def Device.stagePower (d : Device) : Nat :=
  match d.identity with
  | none => 0
  | some id => nominalPower id.rating id.stages d.hcu.stage

/-- The measured power is above 110 % of the stage's nominal power (R112). -/
def Device.overdrawn (d : Device) : Bool := decide (11 * d.stagePower < 10 * d.pins.power)

/-- The measured power is above 5 % of Pfull (R112, R113). -/
def Device.draws (d : Device) : Bool := decide (d.monitorFull < 20 * d.pins.power)

/-- The measured power is below 5 % of Pfull (R112, R113). -/
def Device.drawsNothing (d : Device) : Bool := decide (20 * d.pins.power < d.monitorFull)

/-- The monitor works: the current sense is fitted and the mode is neither START nor HALT (R112, R118). -/
def Device.monitorWorks (d : Device) : Bool := d.conf.currentFitted && d.sc.mode.hears

/-- The monitor state that stage, draw, pull and contactor check call for (Table 41). DEDUCED (log entry 10), unsafe. -/
def Device.monitorWanted (d : Device) : Monitor :=
  if !d.monitorWorks then .watching
  else if 0 < d.hcu.stage then (if d.overdrawn then .overTiming else .watching)
  else if d.hcu.pull = .none ∧ d.hcu.armed = true ∧ d.draws = true then .stuckTiming
  else .watching

/-- The timer a monitor state is entered with. -/
def Device.monitorTimerFor (d : Device) : Monitor → Timer
  | .watching => none
  | .overTiming => d.timer Config.overcurrentTime
  | .stuckTiming => d.timer Config.stuckTime

/-- A shed pull in progress is released at the moment the draw is below 5 % of Pfull (R112, R113). -/
def Device.releasePull (d : Device) : Device :=
  if d.hcu.pull ≠ .none ∧ d.drawsNothing = true then
    d.onHcu fun hcu => { hcu with pull := .none, pullTimer := none }
  else d

/-- The monitor takes the state called for, with its timer; a timing that goes on keeps its timer (Table 41). -/
def Device.followMonitor (d : Device) : Device :=
  if d.hcu.monitor = d.monitorWanted then d
  else d.onHcu fun hcu => { hcu with monitor := d.monitorWanted, monitorTimer := d.monitorTimerFor d.monitorWanted }

/-- The monitor follows the draw and the stage, a pull ends with the draw (R112, R113). -/
def Device.watchPower (d : Device) : Device := d.releasePull.followMonitor

/-- A shed pull begins, with its 10 s timer (R112, R113). -/
def Device.beginPull (d : Device) (pull : ShedPull) : Device :=
  d.onHcu fun hcu =>
    { hcu with pull := pull, pullTimer := d.timer Config.shedPull, monitor := .watching, monitorTimer := none }

end Sys2Proof.Machine
end

