-- ==== Sys2Proof/Machine/Lamps.lean ====
section
/-! DEFINITION. Shared operations of the Lamp Test Unit: judgement, channel records, masks and corroboration, passes,
the measurement window and stops (Chapter 4). -/

namespace Sys2Proof.Machine

/-! ### Judgement (R66) -/

/-- The judgement of sampled values: the first test that applies, in the order of R66. -/
def judgement (ofCoach : Bool) (vf leds millivolts milliamps supply : Nat) : LampStatus :=
  if ofCoach = true ∧ supply < Config.supplyLimit then .unjudged
  else if milliamps < Config.openCurrent then .opened
  else if millivolts < vf * 50 then .short
  else if 2 ≤ leds ∧ millivolts < (2 * leds - 1) * vf * 50 then .partly
  else .pass

/-- The forward drop Vf that judges a channel (R66). -/
def Device.channelVf (d : Device) (num : Nat) : Nat :=
  if num ≤ 16 then (d.identity.map CoachIdentity.vf).getD 20 else d.conf.signalVf

/-- The LED count n that judges a channel (R66). -/
def Device.channelLeds (d : Device) (num : Nat) : Nat :=
  if num ≤ 16 then (d.identity.map fun id => (id.entry num).leds).getD 1 else d.conf.signalLeds

/-- The judgement of channel `num` (R66). -/
def Device.judge (d : Device) (num millivolts milliamps supply : Nat) : LampStatus :=
  judgement (decide (num ≤ 16)) (d.channelVf num) (d.channelLeds num) millivolts milliamps supply

/-- A failure judgement on a record (R67). -/
def Channel.fail (c : Channel) (status : LampStatus) (millivolts milliamps : Nat) : Channel :=
  { c with
    status := status, lastV := millivolts, lastI := milliamps, retries := countUp Config.retryLimit c.retries,
    confirmed := c.confirmed || c.coachReported,
    isFinal := c.isFinal || c.coachReported || decide (countUp Config.retryLimit c.retries = Config.retryLimit) }

/-- An UNJUDGED judgement on a record (R67). -/
def Channel.unjudge (c : Channel) (millivolts milliamps : Nat) : Channel :=
  { c with status := .unjudged, lastV := millivolts, lastI := milliamps }

/-- A PASS judgement on a record (R68). -/
def Channel.good (c : Channel) (millivolts milliamps : Nat) : Channel :=
  { c with status := .pass, lastV := millivolts, lastI := milliamps, retries := 0, confirmed := false, isFinal := false }

/-- A judgement on a record (R67, R68). -/
def Channel.judged (c : Channel) (status : LampStatus) (millivolts milliamps : Nat) : Channel :=
  if status.failed then c.fail status millivolts milliamps
  else if status = .unjudged then c.unjudge millivolts milliamps
  else c.good millivolts milliamps

/-- Change the record of one channel. -/
def onChannel (num : Nat) (f : Channel → Channel) (channels : List Channel) : List Channel :=
  channels.map fun c => if c.num = num then f c else c

/-- The retest timer is started by a failure or UNJUDGED judgement that finds it stopped (R67, R71). -/
def Device.startRetest (d : Device) : Device :=
  if d.ltu.retestTimer.isNone then d.onLtu fun ltu => { ltu with retestTimer := d.timer Config.retestDelay } else d

/-- A change of LAMP content since `before` marked where it is made (R13), not at the end of the event alone. -/
def Device.markLamp (before d : Device) : Device := if d.sameLampContent before then d else d.touchLamp

/-- A judgement in the record of its channel, with the change of LAMP content that it is (R13, R67, R68): the pass
served next in the same event may take back what it has set. -/
def Device.enterRecord (d : Device) (num : Nat) (status : LampStatus) (millivolts milliamps : Nat) : Device :=
  d.markLamp (d.onLtu fun ltu =>
    { ltu with channels := onChannel num (fun c => c.judged status millivolts milliamps) ltu.channels })

/-- The judgement of a channel entered: its record, the retest timer, and SIGNAL_RED_FAIL for channel 17 (R18, R67,
R68). -/
def Device.enterJudgement (d : Device) (num : Nat) (status : LampStatus) (millivolts milliamps : Nat) : Device :=
  let d := d.enterRecord num status millivolts milliamps
  let d := if status.failed || status == .unjudged then d.startRetest else d
  if num = 17 ∧ status.failed = true then d.onAlarms fun a => { a with signalRedFail := true } else d

/-! ### Profile, mask, corroboration (R10, R63, R64, R69) -/

/-- The lamp mask on a channel: a fitted coach channel takes its flag, every other channel has none, in every phase
(R10; DEDUCED, log entry 25, unsafe). -/
def Channel.withMask (plan : Option Plan) (c : Channel) : Channel :=
  match plan with
  | none => { c with masked := false }
  | some p => { c with masked := c.ofCoach && c.fitted && p.mask.getLsbD (c.num - 1) }

/-- The stored plan's mask sets the masked flags (R10). -/
def Device.applyMask (d : Device) : Device :=
  d.onLtu fun ltu => { ltu with channels := ltu.channels.map (Channel.withMask d.cu.plan) }

/-- A channel as it takes the profile at coupling; signal channels keep their records (R63). -/
def Channel.fromProfile (id : CoachIdentity) (ftu : Ftu) (c : Channel) : Channel :=
  if c.ofCoach then
    { Channel.off c.num with
      status := if (id.entry c.num).fitted then .initial else .off,
      coachReported := (id.entry c.num).fitted && ftu.corroborates c.num }
  else c

/-- Channels 1..16 set from the channel profile (R63). -/
def Device.takeProfile (d : Device) (id : CoachIdentity) : Device :=
  (d.onLtu fun ltu => { ltu with channels := ltu.channels.map (Channel.fromProfile id d.ftu) }).applyMask

/-- Channels 1..16 become OFF; signal channels keep their records (R64). -/
def Channel.tornDown (c : Channel) : Channel := if c.ofCoach then Channel.off c.num else c

/-- The signal channels that configuration marks fitted become INITIAL (R62). -/
def Channel.fromConfig (conf : StationConfig) (c : Channel) : Channel :=
  if (c.num = 17 ∧ conf.redFitted = true) ∨ (c.num = 18 ∧ conf.amberFitted = true)
      ∨ (c.num = 19 ∧ conf.greenFitted = true) then { c with status := .initial }
  else c

/-- A channel joins the corroboration set: in it, fitted, and not yet marked (R58, R69). -/
def Channel.joins (ftu : Ftu) (c : Channel) : Bool :=
  c.ofCoach && c.fitted && ftu.corroborates c.num && !c.coachReported

/-- The coach-reported flag follows the corroboration set; a channel that leaves loses confirmed, and final unless its
retries stand at 6 (R69). -/
def Channel.corroborated (ftu : Ftu) (c : Channel) : Channel :=
  if c.joins ftu then { c with coachReported := true }
  else if c.coachReported && !ftu.corroborates c.num then
    { c with coachReported := false, confirmed := false,
             isFinal := c.isFinal && decide (c.retries = Config.retryLimit) }
  else c

/-- The numbers of the channels that join, which enter the retest request set (R69). -/
def Ltu.joining (ltu : Ltu) (ftu : Ftu) : List Nat := (ltu.channels.filter (Channel.joins ftu)).map Channel.num

/-- The flags follow the corroboration set, and a joining channel makes a retest pass pending (R58, R69). -/
def Device.corroborate (d : Device) : Device :=
  d.onLtu fun ltu =>
    { ltu with
      channels := ltu.channels.map (Channel.corroborated d.ftu),
      requests := ltu.requests ++ (ltu.joining d.ftu).filter fun n => !ltu.requests.contains n,
      pendingRetest := ltu.pendingRetest || !(ltu.joining d.ftu).isEmpty }

/-! ### Channel sets (R71 to R73) -/

/-- A channel belongs to a retest pass served now (R71). -/
def Device.inRetest (d : Device) (c : Channel) : Bool :=
  if c.ofCoach then
    d.cu.phase.prepared && c.fitted
      && ((c.status.failed && !c.isFinal) || c.status == .unjudged || d.ltu.requests.contains c.num)
  else c.fitted && c.status.failed && !c.isFinal

/-- A channel belongs to a pass of the kind served now (R71, R72, R73). -/
def Device.inPass (d : Device) (c : Channel) : PassKind → Bool
  | .retest => d.inRetest c
  | .signal => c.fitted && !c.ofCoach
  | .full => c.fitted && (!c.ofCoach || d.cu.phase.prepared)

/-- The channel set of a pass served now, ascending. -/
def Device.passSet (d : Device) (kind : PassKind) : List Nat :=
  (d.ltu.channels.filter fun c => d.inPass c kind).map Channel.num

/-- A channel set contains a coach channel. -/
def hasCoach (channels : List Nat) : Bool := channels.any fun n => decide (n ≤ 16)

/-- A channel at the beginning of a full pass over `set`: retries 0, and final cleared unless confirmed (R72). -/
def Channel.beginFull (set : List Nat) (c : Channel) : Channel :=
  if set.contains c.num then { c with retries := 0, isFinal := c.isFinal && c.confirmed } else c

/-! ### Passes (R70, R74 to R76) -/

/-- The place of a kind in the order of R70, RETEST first. -/
def PassKind.rank : PassKind → Nat
  | .retest => 0
  | .signal => 1
  | .full => 2

/-- The pending kind served first: RETEST, SIGNAL, FULL (R70). -/
def Ltu.firstPending (ltu : Ltu) : Option PassKind :=
  if ltu.pendingRetest then some .retest
  else if ltu.pendingSignal then some .signal
  else if ltu.pendingFull then some .full
  else none

/-- The served kind leaves the pending set (R70); a retest empties the request set (R71). -/
def Ltu.unpend (ltu : Ltu) : PassKind → Ltu
  | .retest => { ltu with pendingRetest := false, requests := [] }
  | .signal => { ltu with pendingSignal := false }
  | .full => { ltu with pendingFull := false }

/-- What the beginning of a pass sets: a full pass resets its channels and restarts its timer (R72), one over an empty set
as well: DEDUCED (log entry 14), unsafe. -/
def Device.takeKind (d : Device) (kind : PassKind) (set : List Nat) : Device :=
  match kind with
  | .retest | .signal => d.onLtu fun ltu => ltu.unpend kind
  | .full =>
    d.onLtu fun ltu =>
      { ltu.unpend kind with
        channels := ltu.channels.map (Channel.beginFull set), fullTimer := d.timer Config.fullPassInterval }

/-- The beginning of a pass. The final flags that a full pass clears are a change of LAMP content, in the event that
writes the identity as well, where LAMP is INITIAL by then (R12, R13, R72). -/
def Device.beginPass (d : Device) (kind : PassKind) (set : List Nat) : Device := d.markLamp (d.takeKind kind set)

/-- The next measurement of the pass in flight begins (R65, R74). -/
def Device.beginMeasurement (d : Device) : Device :=
  match d.ltu.pass with
  | none => d
  | some pass =>
    d.onLtu fun ltu =>
      { ltu with measuring := pass.remaining.head?, measureTimer := d.timer Config.measurement }

/-- The LTU releases the window if it asked for it (R76). -/
def Device.releaseWindow (d : Device) : Device :=
  if d.ltu.window = .none then d
  else (d.onLtu fun ltu => { ltu with window := .none }).hcuWindowRelease

/-- The limit effective report at the LTU: a waiting pass holds the window and begins measuring; after a release the
report is ignored (R75, R76). -/
def Device.limitEffective (d : Device) : Device :=
  if d.ltu.window = .waiting then (d.onLtu fun ltu => { ltu with window := .held }).beginMeasurement else d

/-- The window request of a pass with coach channels (R75): the HCU may report the limit effective at once (R110). -/
def Device.requestWindow (d : Device) : Device :=
  let d := (d.onLtu fun ltu => { ltu with window := .waiting }).hcuWindowRequest
  if d.hcu.window = .effective then d.limitEffective else d

/-- The pass becomes the pass in flight; with a coach channel it needs the window, kept from the pass before or asked
for, or already asked for at this moment by the pass that has given way (R70); without one the window is released (R75,
R76). -/
def Device.startPass (d : Device) (pass : Pass) : Device :=
  if hasCoach pass.channels then
    let d := d.onLtu fun ltu => { ltu with pass := some pass }
    match d.ltu.window with
    | .held => d.beginMeasurement
    | .waiting => d
    | .none => d.requestWindow
  else (d.releaseWindow.onLtu fun ltu => { ltu with pass := some pass }).beginMeasurement

/-- A pending kind is served: its channel set is worked out and it becomes the pass in flight (R70 to R75). -/
def Device.servePass (d : Device) (kind : PassKind) : Device :=
  ((d.onLtu fun ltu => { ltu with met := ⟨ltu.requests, ltu.channels, ltu.fullTimer⟩ }).beginPass kind
    (d.passSet kind)).startPass ⟨kind, d.passSet kind, d.passSet kind⟩

/-- The moment at which a pass ends (R70). -/
def Device.noteEnd (d : Device) : Device := d.onLtu fun ltu => { ltu with endedAt := some d.clock }

/-- The count and the final flag that a full pass met, in a channel of its set that is still fitted; a confirmed flag that
has gone since took final with it (R69, R72). -/
def Channel.restored (met : PassMet) (set : List Nat) (c : Channel) : Channel :=
  match met.channels.find? fun m => m.num == c.num with
  | none => c
  | some m =>
    if c.fitted && set.contains c.num then
      { c with
        retries := m.retries,
        isFinal := m.isFinal && (c.confirmed || !m.confirmed || decide (m.retries = Config.retryLimit)) }
    else c

/-- The pass in flight as if not begun: its kind is pending again with what it met, and its window stays (R70). Outside
PREPARING..CLEARED no full pass is pending for it and the full pass timer is stopped (R77). -/
def Ltu.unbegin (ltu : Ltu) (prepared : Bool) (pass : Pass) : Ltu :=
  let ltu := { ltu with pass := none, measuring := none, measureTimer := none }
  match pass.kind with
  | .retest =>
    { ltu with
      pendingRetest := true,
      requests := ltu.met.requests ++ ltu.requests.filter fun n => !ltu.met.requests.contains n }
  | .signal => { ltu with pendingSignal := true }
  | .full =>
    { ltu with
      pendingFull := prepared || ltu.pendingFull,
      channels := ltu.channels.map (Channel.restored ltu.met pass.channels),
      fullTimer := if prepared then ltu.met.fullTimer else none }

/-- The station whose pass in flight is as if not begun (R70). -/
def Device.unbegin (d : Device) (pass : Pass) : Device := d.onLtu fun ltu => ltu.unbegin d.cu.phase.prepared pass

/-- The pass in flight gives way to a pending kind: it began at this very moment, at which a pass ended, and the kind is of
its order or a higher one, so that the kind begins at this moment too, in whichever order end and kind are taken (R70,
R83). What of the beginning is not taken back, and a pending kind of the same order, is the model's: DESIGN CHOICE (log
entry 36), unsafe. -/
def Device.givesWay (d : Device) (pass : Pass) (kind : PassKind) : Bool :=
  decide (d.ltu.endedAt = some d.clock) && decide (kind.rank ≤ pass.kind.rank)

/-- The measuring unit serves the pending kinds while it is free, or while the pass in flight gives way; a pass with an
empty set ends at once (R70). A full pass that falls due beside one that began at this moment merges with it. The fuel
bounds the kinds that can be pending. -/
def Device.servePasses : Nat → Device → Device
  | 0, d => d
  | n + 1, d =>
    match d.ltu.pass, d.ltu.firstPending with
    | none, none => d.releaseWindow
    | none, some kind =>
      if (d.passSet kind).isEmpty then Device.servePasses n (d.beginPass kind []).releaseWindow.noteEnd
      else d.servePass kind
    | some _, none => d
    | some pass, some kind =>
      if d.givesWay pass kind then
        if kind = .full ∨ ((d.unbegin pass).passSet kind).isEmpty = true then
          Device.servePasses n (d.beginPass kind [])
        else (d.unbegin pass).servePass kind
      else d

/-- Serving with fuel for the three kinds and the look that finds none pending. -/
def Device.serveLamps (d : Device) : Device := d.servePasses 4

/-- The pass in flight is over at this moment, and its stop request with it (R74, R78). -/
def Device.dropPass (d : Device) : Device :=
  (d.onLtu fun ltu => { ltu with pass := none, measuring := none, measureTimer := none, stop := false }).noteEnd

/-- A full pass completed over a set with a coach channel restarts the full-pass age timer (R72). -/
def Device.completePass (d : Device) (pass : Pass) : Device :=
  let d := d.dropPass
  if pass.kind = .full ∧ hasCoach pass.channels = true then
    d.onLtu fun ltu => { ltu with ageTimer := d.timer Config.fullPassAge }
  else d

/-- A stopped pass ends uncompleted; a window still WAITING is released, one that is HELD where no pass with coach
channels follows (R76, R78; `servePasses`). -/
def Device.stopPass (d : Device) : Device :=
  let d := d.dropPass
  if d.ltu.window = .waiting then d.releaseWindow else d

/-- No measurement is in flight for a stop that comes now: none has begun, or none before this very moment, so that it
has not begun for the stop (R76, R78). DEDUCED (log entry 20), safe. -/
def Device.stopsAtOnce (d : Device) : Bool :=
  d.ltu.measuring.isNone || d.ltu.measureTimer == d.timer Config.measurement

/-- A stop request with no measurement in flight takes effect at once (R78). -/
def Device.takeStop (d : Device) : Device :=
  if d.ltu.stop && d.stopsAtOnce && d.ltu.pass.isSome then d.stopPass else d

/-- The LTU's own following-up of an event: a stop taking effect, then the pending passes (R70, R78). -/
def Device.runLamps (d : Device) : Device := d.takeStop.serveLamps

/-- The measured channel leaves the pass: the pass ends when it was the last, or the next measurement begins (R74). -/
def Device.nextMeasurement (d : Device) : Device :=
  match d.ltu.pass with
  | none => d
  | some pass =>
    match pass.remaining.tail with
    | [] => d.completePass pass
    | rest => (d.onLtu fun ltu => { ltu with pass := some { pass with remaining := rest } }).beginMeasurement

/-! ### Phase changes at the LTU (R64, R72, R77) -/

/-- The pass in flight is one that a stop ends: full or retest with a coach channel (R77). -/
def Ltu.stoppable (ltu : Ltu) : Bool :=
  match ltu.pass with
  | none => false
  | some pass => pass.kind != .signal && hasCoach pass.channels

/-- The phase leaves PREPARING..CLEARED (R77). -/
def Ltu.leavePrepared (ltu : Ltu) : Ltu :=
  { ltu with fullTimer := none, pendingFull := false, requests := ltu.requests.filter fun n => decide (16 < n),
             stop := ltu.stop || ltu.stoppable }

/-- Entry to VACANT or COUPLING (R64). -/
def Ltu.tearDown (ltu : Ltu) : Ltu :=
  { ltu with channels := ltu.channels.map Channel.tornDown, fullTimer := none, ageTimer := none,
             requests := ltu.requests.filter fun n => decide (16 < n) }

/-- The LTU at a phase change (R64, R72, R77). -/
def Ltu.onPhase (ltu : Ltu) (old new : Phase) : Ltu :=
  let ltu := if old.prepared && !new.prepared then ltu.leavePrepared else ltu
  let ltu := if new.tornDown then ltu.tearDown else ltu
  if new = .preparing ∧ (old = .coupling ∨ old = .coupled) then { ltu with pendingFull := true } else ltu

end Sys2Proof.Machine
end

