-- ==== Sys2Proof/Machine/Link.lean ====
section
/-! DEFINITION. Shared operations of the Coach Link Controller and the Fault Table Unit: attempts, exchanges, the
arbiter, read sequences, merging and eviction (Chapters 2 and 3). -/

namespace Sys2Proof.Machine

/-! ### Merging and eviction (R53 to R56) -/

/-- Two records name the same fault: equal module and code (R53). -/
def FaultRecord.sameFault (a b : FaultRecord) : Bool := a.module == b.module && a.code == b.code

/-- The rank for eviction (R54). -/
def FaultRecord.rank (restrictive : BitVec 7) (r : FaultRecord) : Nat :=
  if r.blocking restrictive then 2 else if r.active then 1 else 0

/-- Of two items, the first is higher: by rank, then by severity (R54). -/
def FaultRecord.higher (restrictive : BitVec 7) (a b : FaultRecord) : Bool :=
  decide (b.rank restrictive < a.rank restrictive)
    || (a.rank restrictive == b.rank restrictive && decide (b.severity < a.severity))

/-- The eviction candidate among the entries from position `at_` on, against the best found so far: an entry replaces
it only when it is lower, so that among equals the lowest position stands (R54). -/
def candidateFrom (restrictive : BitVec 7) : List FaultEntry → Nat → Nat × FaultEntry → Nat × FaultEntry
  | [], _, best => best
  | e :: rest, at_, best =>
    if best.2.record.higher restrictive e.record then candidateFrom restrictive rest (at_ + 1) (at_, e)
    else candidateFrom restrictive rest (at_ + 1) best

/-- The eviction candidate of a table, with its position (R54). -/
def evictionCandidate (restrictive : BitVec 7) : List FaultEntry → Option (Nat × FaultEntry)
  | [] => none
  | e :: rest => some (candidateFrom restrictive rest 1 (0, e))

/-- A record that meets a full table: it evicts the candidate, or it is dropped (R55). -/
def Ftu.meetFull (restrictive : BitVec 7) (ftu : Ftu) (r : FaultRecord) : Ftu :=
  match evictionCandidate restrictive ftu.table with
  | none => ftu
  | some (position, candidate) =>
    if r.higher restrictive candidate.record then { ftu with table := ftu.table.eraseIdx position ++ [⟨r, true⟩] }
    else
      { ftu with
        overflow := countUp Config.overflowMax ftu.overflow,
        blockingDropped := ftu.blockingDropped || r.blocking restrictive,
        droppedInSequence := ftu.droppedInSequence || r.blocking restrictive }

/-- One clamped record merged into the table (R53). -/
def Ftu.merge (restrictive : BitVec 7) (ftu : Ftu) (r : FaultRecord) : Ftu :=
  if ftu.table.any fun e => e.record.sameFault r then
    { ftu with table := ftu.table.map fun e => if e.record.sameFault r then ⟨r, true⟩ else e }
  else if ftu.table.length < Config.faultTableSize then { ftu with table := ftu.table ++ [⟨r, true⟩] }
  else ftu.meetFull restrictive r

/-! ### Endings of a sequence (R49 to R51) -/

/-- The sequence ends INCOMPLETE: nothing removed, both flags kept (R50). With no sequence running nothing ends. -/
def Ftu.endIncomplete (ftu : Ftu) : Ftu :=
  if ftu.read.isSome then { ftu with read := none, busyWait := none, lastEnding := .incomplete } else ftu

/-- The sequence ends ABORTED (R51). With no sequence running the abort is ignored. -/
def Ftu.endAborted (ftu : Ftu) : Ftu :=
  if ftu.read.isSome then
    { ftu with read := none, busyWait := none, lastEnding := .aborted, reread := false, refreshTimer := none }
  else ftu

/-- The sequence ends COMPLETE at time `now`: unseen entries go, the flag takes the sequence's mark, the age timer is
restarted (R50). -/
def Ftu.endComplete (ftu : Ftu) (now : Nat) : Ftu :=
  { ftu with
    table := ftu.table.filter FaultEntry.seen, read := none, busyWait := none, lastEnding := .complete,
    blockingDropped := ftu.droppedInSequence, lastComplete := some now, ageTimer := some (now + Config.faultAge) }

/-- A request for a read sequence; in VACANT, COUPLING and DEPARTING it is not taken (R42). -/
def Device.requestRead (d : Device) : Device :=
  if d.cu.phase.identified then d.onFtu fun ftu => { ftu with reread := true } else d

/-! ### Offers and beginnings (R37, R43) -/

/-- The FTU offers a read exchange: the CLC takes it with the link UP, and answers with the link failure otherwise
(R37). -/
def Device.offerRead (d : Device) (request : Request) : Device :=
  if d.clc.linkUp then d.onClc fun clc => { clc with pendingRead := some request }
  else d.onFtu Ftu.endIncomplete

/-- The conditions under which a sequence begins (R43). -/
def Device.readBegins (d : Device) : Bool :=
  d.ftu.reread && d.ftu.read.isNone && d.cu.phase.identified && d.clc.linkUp

/-- What the beginning of a sequence sets at time `now` (R43). -/
def Ftu.begin (ftu : Ftu) (now : Nat) : Ftu :=
  { ftu with
    read := some ⟨0, 32, false⟩, busyCount := 0, busyWait := none, reread := false,
    table := ftu.table.map fun e => { e with seen := false }, droppedInSequence := false,
    refreshTimer := some (now + Config.faultRefresh) }

/-- A sequence begins when the conditions of R43 hold. -/
def Device.beginReadIfDue (d : Device) : Device :=
  if d.readBegins then (d.onFtu fun ftu => ftu.begin d.clock).offerRead (.openRead 0 32) else d

/-! ### Arbiter (R32) -/

/-- An exchange starts with its first attempt being sent. -/
def Clc.start (clc : Clc) (request : Request) : Clc := { clc with exchange := some ⟨request, 1, .sending, none⟩ }

/-- Identification at the arbiter: GET-PROFILE after a held IDENTITY, otherwise IDENTIFY (R29). -/
def Clc.identificationRequest (clc : Clc) : Request := if clc.heldIdentity.isSome then .getProfile else .identify

/-- With nothing in flight the first pending kind is served: IDENTIFICATION, POLL, READ (R32). -/
def Clc.serve (clc : Clc) : Clc :=
  if clc.exchange.isSome then clc
  else if clc.pendingId then { clc.start clc.identificationRequest with pendingId := false }
  else if clc.pendingPoll then { clc.start .poll with pendingPoll := false }
  else
    match clc.pendingRead with
    | none => clc
    | some request => { clc.start request with pendingRead := none }

/-! ### Ends of an exchange (R24, R30, R31) -/

/-- An exchange ends with success: the link is UP and nothing is in flight (R24, R30). -/
def Device.exchangeOk (d : Device) : Device := d.onClc fun clc => { clc with exchange := none, linkUp := true }

/-- LINK_LOST is latched by a change from UP to DOWN in the coupled phases (R31). -/
def Device.latchLinkLost (d : Device) : Device :=
  if d.clc.linkUp && d.cu.phase.identified then d.onAlarms fun a => { a with linkLost := true } else d

/-- A READ that is pending when the link goes DOWN is taken back, and the FTU ends the sequence INCOMPLETE (R37). -/
def Device.takeBackRead (d : Device) : Device :=
  if d.clc.pendingRead.isSome then
    (d.onClc fun clc => { clc with pendingRead := none }).onFtu Ftu.endIncomplete
  else d

/-- A failed exchange handed to its requester (R29, R33, R45, R46). -/
def Device.handFailure (d : Device) : Request → Device
  | .identify | .getProfile =>
    d.onClc fun clc => { clc with heldIdentity := none, retryTimer := d.timer Config.identificationRetry }
  | .poll => d
  | .openRead _ _ | .fetch _ => d.onFtu Ftu.endIncomplete

/-- An exchange ends with failure: the link is DOWN, LINK_LOST may be latched, a pending READ is taken back and the
requester is told (R24, R30, R31, R37). -/
def Device.exchangeFailed (d : Device) (request : Request) : Device :=
  let d := d.latchLinkLost
  let d := d.onClc fun clc => { clc with exchange := none, linkUp := false }
  (d.takeBackRead).handFailure request

/-- The next attempt of the exchange is being sent (R23). -/
def Exchange.retry (x : Exchange) : Exchange := { x with attempt := x.attempt + 1, step := .sending, timer := none }

/-- The wait until the link has been quiet for 3 byte times, counted at the end of a byte: that byte's start bit lies one
byte time back (R23). A late frame that has ended is waited out so as well. -/
def Device.awaitQuiet (d : Device) (x : Exchange) : Device :=
  d.onClc fun clc => { clc with exchange := some { x with step := .waitQuiet, timer := d.timer Config.twoByteTimes } }

/-- A failed attempt: the exchange fails at the third. Otherwise the next attempt starts at once where the link has been
quiet for 3 byte times already, after a missing reply and after a gap, and waits for that quiet after a byte (R23, R24). -/
def Device.attemptFailed (d : Device) (x : Exchange) (quiet : Bool) : Device :=
  if Config.exchangeAttempts ≤ x.attempt then d.exchangeFailed x.request
  else if quiet then d.onClc fun clc => { clc with exchange := some x.retry }
  else d.awaitQuiet x

/-- The reply TYPEs a request accepts (Table 17), by the request that each reply command answers. -/
inductive ReplyKind where
  | identity | profile | status | opened | records | busy
  deriving DecidableEq, Repr

/-- A request accepts a reply TYPE (Table 17). -/
def Request.accepts : Request → ReplyKind → Bool
  | .identify, .identity => true
  | .getProfile, .profile => true
  | .poll, .status => true
  | .openRead _ _, .opened => true
  | .openRead _ _, .busy => true
  | .fetch _, .records => true
  | .fetch _, .busy => true
  | _, _ => false

/-- A late frame is over: at its last byte the wait for quiet goes on from there, and after a gap of 3 byte times the link
is quiet and the next attempt starts at once (R23; the end of a late frame, DESIGN CHOICE, log entry 34, safe). -/
def Device.lateFrameEnds (d : Device) (x : Exchange) (quiet : Bool) : Device :=
  if quiet then d.onClc fun clc => { clc with exchange := some x.retry } else d.awaitQuiet x

/-- A frame on the link that ends without a reply of its own: a begun reply fails its attempt (R22, R23), a late frame
belongs to no attempt (R23), and outside them there is no frame. -/
def Device.frameEnds (d : Device) (quiet : Bool) : Device :=
  match d.clc.exchange with
  | none => d
  | some x =>
    match x.step with
    | .receiving => d.attemptFailed x quiet
    | .lateFrame => d.lateFrameEnds x quiet
    | .sending | .window | .waitQuiet => d

/-- A reply frame that has ended with a good CRC. Without a begun frame there is no reply (R22); a LEN not permitted
discards it (R22; DEDUCED, log entry 7, safe), a TYPE not accepted fails the attempt (R23), and otherwise the exchange
succeeds and the result is handed on (R24). A late frame ends unused (R23). -/
def Device.takeReply (d : Device) (kind : ReplyKind) (lengthOk : Bool) (result : Request → Device → Device) : Device :=
  match d.clc.exchange with
  | none => d
  | some x =>
    if x.step = .receiving ∧ (lengthOk && x.request.accepts kind) = true then result x.request d.exchangeOk
    else d.frameEnds false

/-! ### Results at the FTU (R45 to R48) -/

/-- The sequence ends COMPLETE now (R50). -/
def Device.completeRead (d : Device) : Device := d.onFtu fun ftu => ftu.endComplete d.clock

/-- OPENED at the FTU (R45): the BUSY count goes back to 0 at each (R47). -/
def Device.readOpened (d : Device) (available : Nat) : Device :=
  match d.ftu.read with
  | none => d
  | some read =>
    let d := d.onFtu fun ftu => { ftu with busyCount := 0 }
    if read.start < available then
      (d.onFtu fun ftu => { ftu with read := some ⟨read.start, 32, true⟩, toggle := false }).offerRead (.fetch false)
    else d.completeRead

/-- A reply that advances nothing is counted; the twentieth in a row ends the sequence INCOMPLETE (R47). -/
def Device.countBusy (d : Device) (next : Device → Device) : Device :=
  let d := d.onFtu fun ftu => { ftu with busyCount := ftu.busyCount + 1 }
  if Config.busyLimit ≤ d.ftu.busyCount then d.onFtu Ftu.endIncomplete else next d

/-- BUSY at the FTU: a wait of 100 ms (R45, R47). -/
def Device.readBusy (d : Device) : Device :=
  if d.ftu.read.isSome then
    d.countBusy fun d => d.onFtu fun ftu => { ftu with busyWait := d.timer Config.busyWait }
  else d

/-- The read exchange that the sequence offers where it stands: OPEN-READ in step OPENING, FETCH in step FETCHING. -/
def Ftu.nextRequest (ftu : Ftu) (read : CurrentRead) : Request :=
  if read.fetching then .fetch ftu.toggle else .openRead read.start 32

/-- The FTU offers its next exchange again (R47). With the link DOWN the offer is refused and the sequence ends: DEDUCED
(log entry 11), unsafe. -/
def Device.offerAgain (d : Device) : Device :=
  match d.ftu.read with
  | none => d
  | some read => d.offerRead (d.ftu.nextRequest read)

/-- An accepted frame without its records: BUSY count 0, budget reduced, toggle flipped (R46). -/
def Ftu.frameTaken (ftu : Ftu) (read : CurrentRead) (count : Nat) : Ftu :=
  { ftu with read := some { read with budget := read.budget - count }, toggle := !ftu.toggle }

/-- After an accepted frame: the sequence ends COMPLETE at the end flag; a used budget ends the read, and the sequence
INCOMPLETE at start index 64; otherwise FETCH goes on (R46, R48). The next read stands with its budget of 32 from its
beginning in step OPENING on, before OPENED sets it (R45): DESIGN CHOICE (log entry 29), safe. -/
def Device.afterFrame (d : Device) (endFlag : Bool) : Device :=
  match d.ftu.read with
  | none => d
  | some read =>
    if endFlag then d.completeRead
    else if 0 < read.budget then d.offerRead (.fetch d.ftu.toggle)
    else if read.start < 64 then
      (d.onFtu fun ftu => { ftu with read := some ⟨read.start + 32, 32, false⟩ }).offerRead
        (.openRead (read.start + 32) 32)
    else d.onFtu Ftu.endIncomplete

/-! ### Identity (R1, R12, R29) -/

/-- The identity written into the Bay Record with what follows from it: channels 1..16 take the profile, and HEAT, LAMP
and FAULT become INITIAL (R1, R12, R63). -/
def Device.writeIdentity (d : Device) (id : CoachIdentity) : Device :=
  let d := (d.setIdentity (some id)).takeProfile id
  let d := d.onHp fun hp => { hp with firstRun := true }
  d.onSc fun sc => { sc with heat := ⟨.initial, false⟩, lamp := ⟨.initial, false⟩, fault := ⟨.initial, false⟩ }

/-- Identification has succeeded: identity written, last-seen change count set, poll timer started with a POLL due at
once (R29, R33, R36). -/
def Device.identified (d : Device) (idn profile : List Byte) : Device :=
  (d.writeIdentity (readIdentity idn profile)).onClc fun clc =>
    { clc with heldIdentity := none, changeCount := some (identityChangeCount idn), pendingPoll := true,
               pollTimer := d.timer Config.pollPeriod }

/-! ### Unplug and phase changes (R28, R34, R38, R41, R51) -/

/-- The CLC at the unplug event (R38). The timers, the pending set and the exchange in flight end; the last STATUS, its
state and the change count are kept. -/
def Clc.unplugged (clc : Clc) : Clc :=
  { clc with
    plug := false, plugFilter := none, linkUp := false, exchange := none, pendingId := false, pendingPoll := false,
    pendingRead := none, heldIdentity := none, retryTimer := none, pollTimer := none }

/-- A read exchange is in flight or pending, so that an unplug hands an abort to the FTU (R37, R38). -/
def Clc.carriesRead (clc : Clc) : Bool :=
  clc.pendingRead.isSome ||
    match clc.exchange with
    | none => false
    | some x =>
      match x.request with
      | .openRead _ _ | .fetch _ => true
      | .identify | .getProfile | .poll => false

/-- The unplug at CLC and FTU (R38, R51). -/
def Device.unplugLink (d : Device) : Device :=
  let d := if d.clc.carriesRead then d.onFtu Ftu.endAborted else d
  d.onClc Clc.unplugged

/-- The CLC at a phase change: a new coach at COUPLING (R28); the last STATUS goes at VACANT (R34, R35). -/
def Clc.onPhase (clc : Clc) (new : Phase) : Clc :=
  match new with
  | .coupling =>
    { clc with
      linkUp := false, exchange := none, pendingId := true, pendingPoll := false, pendingRead := none,
      heldIdentity := none, retryTimer := none, pollTimer := none, lastStatus := none, tcState := .none,
      changeCount := none }
  | .vacant => { clc with lastStatus := none, tcState := .none }
  | .coupled | .preparing | .ready | .clearing | .cleared | .departing => clc

/-- The FTU at a phase change: reset at VACANT and COUPLING (R41); a running sequence ends ABORTED and the refresh
timer stops at DEPARTING (R44, R51; with no sequence running the rest stays, DEDUCED, log entry 12, unsafe); the exit
from COUPLING requests the first sequence (R42). -/
def Ftu.onPhase (ftu : Ftu) (old new : Phase) : Ftu :=
  match new with
  | .vacant | .coupling => Ftu.reset
  | .departing => { ftu.endAborted with refreshTimer := none }
  | .coupled | .preparing => if old = .coupling then { ftu with reread := true } else ftu
  | .ready | .clearing | .cleared => ftu

end Sys2Proof.Machine
end

