-- ==== Sys2Proof/Machine/Transmit.lean ====
section
/-! DEFINITION. Shared operations of the Line Unit: the access procedure, the choice of a frame, the receiver at the end
of a frame, the statistics counters, the Peer Table, and the reply in progress (Chapters 8 and 10). -/

namespace Sys2Proof.Machine

/-! ### Access to the line (R144, R147, R148) -/

/-- The hold-back of a NOTICE has passed: 250 ms since the start of the previous NOTICE, or none started (R148). -/
def Device.holdbackOver (d : Device) : Bool :=
  match d.lu.lastNotice with
  | none => true
  | some t => decide (t + Config.noticeSpacing ≤ d.clock)

/-- The unbegun NOTICE may begin (R147, R148). -/
def Device.noticeMayBegin (d : Device) : Bool := d.lu.unbegun && d.holdbackOver

/-- A frame is ready to send (R144), in a mode in which the transmitter works (R150). -/
def Device.readyToSend (d : Device) : Bool :=
  d.sc.mode.speaks && !d.lu.sending && (d.lu.flight.isSome || d.noticeMayBegin || !d.lu.lists.isEmpty)

/-- The slot of the next attempt (R144): (station number + 5 × a) mod 16. -/
def Device.slot (d : Device) : Nat :=
  (d.conf.station + 5 * (d.lu.flight.map Flight.failed).getD 0) % 16

/-- The access procedure as far as it goes at this moment: with a frame ready and the line quiet the backoff starts
(R144), in slot 0 too, where its expiry follows at once: DESIGN CHOICE (log entry 15), safe. -/
def Device.seekLine (d : Device) : Device :=
  if d.readyToSend && d.lu.quiet && d.lu.backoff.isNone then
    d.onLu fun lu => { lu with backoff := d.timer (d.slot * Config.backoffSlot) }
  else d

/-- The frame that begins its first attempt: the NOTICE with its snapshot, the start time recorded and the four change
marks cleared (R14, R148, R149). -/
def Device.beginNotice (d : Device) : Device :=
  let snap := d.snapshot
  let d := d.onLu fun lu =>
    { lu with
      flight := some ⟨.notice snap, (FlightContent.notice snap).bytes d.conf.station, 0⟩, unbegun := false,
      lastNotice := some d.clock }
  d.onSc fun sc =>
    { sc with
      phase := { sc.phase with mark := false }, heat := { sc.heat with mark := false },
      lamp := { sc.lamp with mark := false }, fault := { sc.fault with mark := false } }

/-- The first queued LIST becomes the frame in flight (R147). -/
def Device.beginList (d : Device) (frame : ListFrame) (rest : List ListFrame) : Device :=
  d.onLu fun lu =>
    { lu with flight := some ⟨.list frame, (FlightContent.list frame).bytes d.conf.station, 0⟩, lists := rest }

/-- The choice of the frame at the end of the backoff: the frame in flight, the NOTICE that may begin, the LIST queued
first (R144, R147). -/
def Device.chooseFrame (d : Device) : Device :=
  if d.lu.flight.isSome then d
  else if d.noticeMayBegin then d.beginNotice
  else
    match d.lu.lists with
    | [] => d
    | frame :: rest => d.beginList frame rest

/-- An attempt begins with the start bit of PRE: the line is no longer quiet and the own receiver assembles the frame
from its start (R144, R145). A cut-off frame that it was still assembling is dropped and not counted, since the line is
quiet at 15 bit times and the gap is found at 31 (R141, R142): DESIGN CHOICE (log entry 31), unsafe. -/
def Device.beginAttempt (d : Device) : Device :=
  if d.lu.flight.isSome then
    d.onLu fun lu =>
      { lu with sending := true, backoff := none, quiet := false, quietTimer := none, receiver := .assembling }
  else d.onLu fun lu => { lu with backoff := none }

/-! ### Receiver and counters (R141, R142, R153) -/

/-- The line stops being quiet, and the 15 bit times count again (R141): from a start bit, from the end of a frame as the
example of 8.7 counts, and from the moment of a discard and of an own collision, whose byte is still on the line: DESIGN
CHOICE (log entry 30), unsafe. -/
def Device.lineBusy (d : Device) : Device :=
  d.onLu fun lu => { lu with quiet := false, quietTimer := d.timer Config.lineQuiet }

/-- The receiver leaves a frame for the given state and waits for quiet (R141, R142). -/
def Device.leaveFrame (d : Device) (receiver : Receiver) : Device :=
  d.lineBusy.onLu fun lu => { lu with receiver := receiver }

/-- Change the statistics counters alone. -/
def Device.onStats (d : Device) (f : Stats → Stats) : Device := d.onLu fun lu => { lu with stats := f lu.stats }

/-- A CRC or format error is counted (R153). -/
def Device.countFormat (d : Device) : Device :=
  d.onStats fun st => { st with format := countUp Config.counterMax st.format }

/-- A gap timeout is counted (R153). -/
def Device.countGap (d : Device) : Device :=
  d.onStats fun st => { st with gap := countUp Config.counterMax st.gap }

/-- A collision is counted (R153). -/
def Device.countCollision (d : Device) : Device :=
  d.onStats fun st => { st with collisions := countUp Config.counterMax st.collisions }

/-- A dropped frame is counted (R153). -/
def Device.countDropped (d : Device) : Device :=
  d.onStats fun st => { st with dropped := countUp Config.counterMax st.dropped }

/-- An unauthorised dispatch frame is counted (R153). -/
def Device.countUnauthorised (d : Device) : Device :=
  d.onStats fun st => { st with unauthorised := countUp Config.counterMax st.unauthorised }

/-- The receiver is assembling a frame of another node: it works in this mode and the station is not sending (R139,
R141, R143). Its end arrives as one command: DESIGN CHOICE (log entry 17), safe. -/
def Device.receives (d : Device) : Bool := d.sc.mode.hears && d.lu.receiver == .assembling && !d.lu.sending

/-- A frame is discarded: after a CRC discard the receiver is IDLE, after a discard at an earlier byte SKIPPING; it is
counted once (R142). -/
def Device.discardFrame (d : Device) (atCrc : Bool) : Device :=
  (d.leaveFrame (if atCrc then .idle else .skipping)).countFormat

/-- A LIST is in flight and its attempt is being driven. -/
def Lu.sendingList (lu : Lu) : Bool :=
  match lu.sending, lu.flight with
  | true, some ⟨.list _, _, _⟩ => true
  | _, _ => false

/-- One of the events that R168 places beside each other has fallen: its moment is kept for the other. -/
def Device.lineEventNow (d : Device) : Device := d.onLu fun lu => { lu with lineEvent := some d.clock }

/-- The receiver is free at the very moment of a LIST leaving the queue, a QUERY accepted or a number conflict, so that
the event which R168 places beside it may end now too. DESIGN CHOICE (log entry 35), safe. -/
def Device.atLineEvent (d : Device) : Bool :=
  d.sc.mode.hears && d.lu.receiver == .idle && !d.lu.sending && d.lu.lineEvent == some d.clock

/-- A QUERY may end at the moment at which a LIST of the station leaves its queue or a number conflict is reported, before
it or after it (R168): the LIST is still being driven, or the other event has fallen at this moment. DESIGN CHOICE (log
entry 35), safe. -/
def Device.queryBesideEvent (d : Device) : Bool := (d.sc.mode.hears && d.lu.sendingList) || d.atLineEvent

/-! ### Peer Table (R151, R152) -/

/-- The entry of a station number. -/
def findPeer (peers : List PeerEntry) (station : Nat) : Option PeerEntry := peers.find? fun e => e.station == station

/-- An entry made or refreshed, the table kept in station number order (R151). -/
def putPeer (entry : PeerEntry) : List PeerEntry → List PeerEntry
  | [] => [entry]
  | e :: rest =>
    if e.station < entry.station then e :: putPeer entry rest
    else if e.station = entry.station then entry :: rest
    else entry :: e :: rest

/-- An entry removed (R152). -/
def dropPeer (station : Nat) (peers : List PeerEntry) : List PeerEntry := peers.filter fun e => e.station != station

/-- A transition into CLEARED: the phase is CLEARED and the previous phase anything else, none included (R151). -/
def PeerEntry.intoCleared (e : PeerEntry) : Bool := e.phase == .cleared && e.previous != some .cleared

/-! ### Reply in progress (R165 to R167) -/

/-- LIST frames the LU holds, one in flight counted (R147). -/
def Lu.listsHeld (lu : Lu) : Nat :=
  lu.lists.length +
    match lu.flight with
    | some ⟨.list _, _, _⟩ => 1
    | _ => 0

/-- The reply's next frame is accepted into the queue, and the reply goes on or ends (R167). -/
def Device.acceptList (d : Device) (reply : Reply) : Device :=
  let count := d.listCount reply.subject reply.next
  let d := d.onLu fun lu => { lu with lists := lu.lists ++ [d.buildList reply] }
  d.onLu fun lu =>
    { lu with
      reply := if count = 0 then none
        else some { reply with next := reply.next + count, offered := reply.offered + 1 } }

/-- Offers follow one another at once until one is refused or the reply ends (R167). The LU holds two LIST frames at
most, so three offers are enough. -/
def Device.offerReply : Nat → Device → Device
  | 0, d => d
  | n + 1, d =>
    match d.lu.reply with
    | none => d
    | some reply =>
      if !d.sc.mode.speaks then d
      else if Config.listPlaces ≤ d.lu.listsHeld then d
      else if reply.offered ≠ 0 ∧ d.subjectTotal reply.subject ≤ reply.next then
        d.onLu fun lu => { lu with reply := none }
      else Device.offerReply n (d.acceptList reply)

/-- The reply is ready to offer: at the acceptance of its QUERY and whenever a LIST has left the queue (R167). -/
def Device.continueReply (d : Device) : Device := d.offerReply 3

/-- An accepted QUERY ends the reply in progress and starts its own; in CONFLICT it leaves none (R166). -/
def Device.startReply (d : Device) (subject : Subject) (requester start : Nat) : Device :=
  if d.sc.mode.speaks then
    (d.lineEventNow.onLu fun lu => { lu with reply := some ⟨subject, requester, start, 0⟩ }).continueReply
  else d.lineEventNow.onLu fun lu => { lu with reply := none }

end Sys2Proof.Machine
end

