-- ==== Sys2Proof/Machine/Settle.lean ====
section
/-! DEFINITION. What follows from an event before the next: the block set, the phase rules in the order of R120, the
forcing of the claim, the caps, the lamp passes, the arbiter, the monitor, the aspect, the section marks and the access
to the line. `close before after` runs it on the state `after` that an event leaves, `before` being the state it met. -/

namespace Sys2Proof.Machine

/-! ### A change of phase (R28, R64, R95, R116, R128, R131, R135 to R137) -/

/-- The spacing timer restarted to run X seconds; a timer of length 0 does not run (R126, R127). -/
def Device.spacingTimer (d : Device) : Timer :=
  if d.conf.spacing = 0 then none else d.timer (d.conf.spacing * Config.second)

/-- The presence timer at entry to DEPARTING (R136). -/
def Device.presenceTimer (d : Device) : Timer :=
  if d.conf.presenceFitted then (if d.pins.vehicle then none else d.timer Config.presenceSensed)
  else d.timer Config.presenceUnsensed

/-- The CU at a change of phase: the retry hold clears, a contest begins at CLEARING and is over elsewhere, the spacing
timer is restarted at CLEARED, the plan is consumed and the presence timer started at DEPARTING (R127, R128, R131,
R135, R137). The own contest key goes with the contest at the entry to CLEARED as well, where R130 does not name it:
DESIGN CHOICE (log entry 38), unsafe. -/
def Device.cuPhase (d : Device) (new : Phase) : Device :=
  d.onCu fun cu =>
    { cu with
      phase := new, retryHold := false,
      intent := if new = .clearing then .awaiting else .none, intentTimer := none, key := none,
      spacing := if new = .cleared then d.spacingTimer else cu.spacing,
      presence := if new = .departing then d.presenceTimer else none,
      plan := if new = .departing then none else cu.plan }

/-- The HP at a change of phase: its values and HEAT reached return at VACANT and COUPLING, To in use and the probe's
last good value apart (R95). -/
def Hp.onPhase (hp : Hp) (new : Phase) : Hp :=
  if new.tornDown then { Hp.reset with toInUse := hp.toInUse, probeLast := hp.probeLast } else hp

/-- The HCU at a change of phase: the window state at VACANT and COUPLING, Ed and SAT at COUPLING (R111, R116, R118). -/
def Hcu.onPhase (hcu : Hcu) (new : Phase) : Hcu :=
  let hcu := if new.tornDown then { hcu with window := .none, settling := none } else hcu
  if new = .coupling then { hcu with energy := 0, sat := false } else hcu

/-- HEAT, LAMP and FAULT become OFF at VACANT and COUPLING (R12). -/
def Sc.onPhase (sc : Sc) (new : Phase) : Sc :=
  if new.tornDown then { sc with heat := .off, lamp := .off, fault := .off } else sc

/-- A change of phase at every unit but the CU (Chapter 7). -/
def Device.handPhase (d : Device) (old new : Phase) : Device :=
  ((((((d.onLtu fun ltu => ltu.onPhase old new).onFtu fun ftu => ftu.onPhase old new).onClc fun clc =>
    clc.onPhase new).onHp fun hp => hp.onPhase new).onHcu fun hcu => hcu.onPhase new).onSc fun sc => sc.onPhase new)

/-- The coach identity is removed at VACANT and COUPLING (R3, R137). -/
def Device.dropIdentity (d : Device) (new : Phase) : Device := if new.tornDown then d.setIdentity none else d

/-- A change of phase, handed at once to every unit that acts on it (Chapter 7); at DEPARTING the plan is consumed and
with it the masked flags (R4, R11). -/
def Device.setPhase (d : Device) (new : Phase) : Device :=
  let d := ((d.cuPhase new).handPhase d.cu.phase new).dropIdentity new
  if new = .departing then d.applyMask else d

/-! ### The phase rules (R27, R120, R125, R126, R131, R132) -/

/-- Coupling begins (R27). -/
def Device.coupleNow (d : Device) : Bool :=
  (d.cu.phase == .vacant || d.cu.phase == .departing) && d.clc.plug && d.sc.mode.heats

/-- Where a clearance that is taken back goes: READY, or PREPARING with a preparation block present (R131, R132). -/
def Device.fallBack (d : Device) : Phase := if d.cu.blocks.preparation then .preparing else .ready

/-- M of the stored plan is above the release lead R (R126, R132). -/
def Device.tooEarly (d : Device) : Bool :=
  match d.cu.plan with
  | none => false
  | some plan => decide (d.conf.releaseLead < plan.minutes)

/-- A bay in READY is eligible to clear (R126). -/
def Device.eligible (d : Device) : Bool :=
  d.cu.plan.isSome && !d.tooEarly && !d.cu.blocks.departurePath && d.cu.spacing.isNone && !d.cu.retryHold

/-- The phase that the phase rules call for now, if any, on the block set as it stands: coupling (R27), the exits of
COUPLING and COUPLED (R125), revocation (R131) and postponement (R132), the returns from READY and PREPARING, READY
(R125), and eligibility (R126). -/
def Device.nextPhase (d : Device) : Option Phase :=
  match d.cu.phase with
  | .vacant | .departing => if d.coupleNow then some .coupling else none
  | .coupling =>
    if d.identity.isSome then (if d.cu.matchState = .matched then some .preparing else some .coupled) else none
  | .coupled => if d.cu.matchState = .matched then some .preparing else none
  | .clearing | .cleared =>
    if d.cu.blocks.noPlan then some .coupled
    else if d.cu.blocks.revoking || d.tooEarly then some d.fallBack
    else none
  | .ready =>
    if d.cu.blocks.noPlan then some .coupled
    else if d.cu.blocks.preparation then some .preparing
    else if d.eligible then (if d.conf.spacing = 0 then some .cleared else some .clearing)
    else none
  | .preparing =>
    if d.cu.blocks.noPlan then some .coupled
    else if d.cu.blocks.preparation then none
    else some .ready

/-- The match state is evaluated (R6). -/
def Device.takeMatch (d : Device) : Device := d.onCu fun cu => { cu with matchState := d.evalMatch }

/-- LOCKOUT-FAULT follows the heat lockout signal (R57, R114). -/
def Device.takeLockout (d : Device) : Device := d.onHcu fun hcu => { hcu with faultLockout := d.ftu.heatLockout }

/-- The block set is evaluated (R120). -/
def Device.takeBlocks (d : Device) : Device := d.onCu fun cu => { cu with blocks := d.evalBlocks }

/-- The match state, LOCKOUT-FAULT, the corroboration flags and the block set follow the state (R6, R57, R58, R120). -/
def Device.refresh (d : Device) : Device :=
  d.takeMatch.takeLockout.corroborate.takeBlocks

/-- The phase rules until none applies, the block set worked out again after each move (R120). The fuel is above the
longest chain of moves one event can cause. -/
def Device.settlePhases : Nat → Device → Device
  | 0, d => d.refresh
  | n + 1, d =>
    match d.refresh.nextPhase with
    | none => d.refresh
    | some new => Device.settlePhases n (d.refresh.setPhase new)

/-! ### Aspect (R138) -/

/-- The aspect of Table 47. -/
def Device.aspectNow (d : Device) : Aspect :=
  match d.sc.mode with
  | .start => ⟨.dark, false⟩
  | .halt | .conflict => ⟨.red, true⟩
  | .listen => if d.clc.plug then ⟨.red, false⟩ else ⟨.dark, false⟩
  | .run | .isolated =>
    match d.cu.phase with
    | .vacant => if d.sc.alarms.pullout then ⟨.red, true⟩ else ⟨.dark, false⟩
    | .coupling | .coupled | .preparing => ⟨.red, false⟩
    | .ready | .clearing => ⟨.amber, false⟩
    | .cleared => ⟨.green, false⟩
    | .departing => ⟨.green, true⟩

/-- A new aspect is taken up at once, a flashing one with its lit half (R138). -/
def Device.showAspect (d : Device) : Device :=
  if d.cu.aspect = d.aspectNow then d
  else
    d.onCu fun cu =>
      { cu with
        aspect := d.aspectNow, lit := d.aspectNow.lamp != .dark,
        flash := if d.aspectNow.flashing then d.timer Config.flashHalf else none }

/-! ### Closing an event -/

/-- What follows from an event in the units: phases, claim and caps, lamp passes, read sequence and arbiter, monitor,
aspect. -/
def Device.settle (d : Device) : Device :=
  ((d.settlePhases 8).forceClaim.capStage.runLamps.beginReadIfDue.onClc Clc.serve).watchPower.showAspect

/-- A section other than PHASE records a change of its content only if it was not OFF when the event came: a change
while it is OFF is not recorded, and what the identity write sets is taken before the section becomes INITIAL (R12,
R13, R63). A window request or release and the beginning of a full pass in the same event are marked where they are made.
DEDUCED (log entry 22), unsafe. -/
def Section.records (x : Section) : Bool := x.status != .off

/-- The sections whose content an event has changed become DIRTY with their change marks set, and a change of PHASE
content asks for an early NOTICE (R13). -/
def Device.markChanges (before d : Device) : Device :=
  let d := if d.samePhaseContent before then d else d.touchPhase
  let d := if before.sc.heat.records && !d.sameHeatContent before then d.touchHeat else d
  let d := if before.sc.lamp.records && !d.sameLampContent before then d.touchLamp else d
  if before.sc.fault.records && !d.sameFaultContent before then d.touchFault else d

/-- The end of an event that met `before` and left `after`: what follows in the units, the section marks, and the
access to the line. -/
def close (before after : Device) : Device := (before.markChanges after.settle).seekLine

end Sys2Proof.Machine
end

