-- ==== Sys2Proof/Machine/CoachLink.lean ====
section
/-! DEFINITION. The commands of the plug and of the Coach Link (Chapter 2; R134). -/

namespace Sys2Proof.Machine

/-! ### Plug (R26, R134) -/

/-- The plug filter after a change of level: it counts 200 ms while the level disagrees with the debounced state, and
not while the device is held in reset (R26, R154). -/
def Device.plugFilterNow (d : Device) : Timer :=
  if d.sc.startStep = .held ∨ d.pins.plug = d.clc.plug then none else d.timer Config.plugDebounce

/-- PLUG_PIN_CHANGE (R26). -/
def execPlugPinChange (seated : Bool) (s : State) : Result :=
  s.did fun d =>
    if d.pins.plug = seated then d
    else
      let d := d.onPins fun pins => { pins with plug := seated }
      d.onClc fun clc => { clc with plugFilter := d.plugFilterNow }

/-- PLUG_PRESENT (R26): the filter has counted a seated plug while the debounced state was ABSENT. -/
def execPlugPresent (s : State) : Result :=
  s.did fun d =>
    if d.clc.plug = false ∧ d.pins.plug = true then
      d.onExpiry d.clc.plugFilter fun t =>
        close d (t.onClc fun clc => { clc with plug := true, plugFilter := none })
    else d

/-- The phase at an unplug (R134). -/
def Device.unplugPhase (d : Device) : Device :=
  match d.cu.phase with
  | .coupling | .coupled => d.setPhase .vacant
  | .preparing | .ready | .clearing => (d.onAlarms fun a => { a with pullout := true }).setPhase .vacant
  | .cleared => d.setPhase .departing
  | .vacant | .departing => d

/-- UNPLUG (R38, R134): the filter has counted an empty socket while the debounced state was PRESENT. -/
def execUnplug (s : State) : Result :=
  s.did fun d =>
    if d.clc.plug = true ∧ d.pins.plug = false then
      d.onExpiry d.clc.plugFilter fun t => close d t.unplugLink.unplugPhase
    else d

/-! ### Attempts (R21 to R24) -/

/-- The exchange in flight, when its attempt stands at the given step. -/
def Clc.at (clc : Clc) (step : AttemptStep) : Option Exchange :=
  match clc.exchange with
  | none => none
  | some x => if x.step = step then some x else none

/-- REQUEST_SENT (R21): the reply window opens for 50 ms (R23). -/
def execRequestSent (s : State) : Result :=
  s.did fun d =>
    match d.clc.at .sending with
    | none => d
    | some x =>
      d.onClc fun clc =>
        { clc with exchange := some { x with step := .window, timer := d.timer Config.replyWindow } }

/-- ATTEMPT_START (R23): the link has been quiet for 3 byte times after a failed attempt. -/
def execAttemptStart (s : State) : Result :=
  s.did fun d =>
    match d.clc.at .waitQuiet with
    | none => d
    | some x => d.onExpiry x.timer fun t => t.onClc fun clc => { clc with exchange := some x.retry }

/-- REPLY_TIMEOUT (R23). -/
def execReplyTimeout (s : State) : Result :=
  s.did fun d =>
    match d.clc.at .window with
    | none => d
    | some x => d.onExpiry x.timer fun t => close d (t.attemptFailed x true)

/-- A LEAD byte on the link: inside the open window it begins a reply frame, and the 50 ms no longer fail the attempt
(R22, R23); after a failed attempt it begins a late frame, which belongs to no attempt and puts the next one off until it
has ended (R23; which bytes reach the model, DESIGN CHOICE, log entry 34, safe). -/
def Device.leadHeard (d : Device) (x : Exchange) : Device :=
  match x.step with
  | .window => d.onClc fun clc => { clc with exchange := some { x with step := .receiving, timer := none } }
  | .waitQuiet => d.onClc fun clc => { clc with exchange := some { x with step := .lateFrame, timer := none } }
  | .sending | .receiving | .lateFrame => d

/-- REPLY_FRAME_BEGIN (R22). -/
def execReplyFrameBegin (s : State) : Result :=
  s.did fun d =>
    match d.clc.exchange with
    | none => d
    | some x => d.leadHeard x

/-- REPLY_GAP_TIMEOUT (R22): the gap that discards the frame is the quiet that the next attempt waits for (R23). -/
def execReplyGapTimeout (s : State) : Result := s.did fun d => close d (d.frameEnds true)

/-- REPLY_FRAME_DISCARDED (R22, R23): whatever was found, the attempt fails at that moment. -/
def execReplyFrameDiscarded (_found : ReplyFault) (s : State) : Result :=
  s.did fun d => close d (d.frameEnds false)

/-! ### Identification (R29) -/

/-- IDENTITY (R29): the reply is held, and GET-PROFILE is the next exchange of the pair. -/
def execIdentity (payload : List Byte) (s : State) : Result :=
  s.did fun d =>
    close d
      (d.takeReply .identity (lengthIs payload 10) fun _ d =>
        d.onClc fun clc => { clc with heldIdentity := some payload, pendingId := true })

/-- PROFILE (R29): identification has succeeded with the held IDENTITY. -/
def execProfile (payload : List Byte) (s : State) : Result :=
  s.did fun d =>
    close d
      (d.takeReply .profile (lengthIs payload 16) fun _ d =>
        match d.clc.heldIdentity with
        | none => d
        | some idn => d.identified idn payload)

/-- IDENTIFICATION_RETRY_EXPIRY (R29). -/
def execIdentificationRetryExpiry (s : State) : Result :=
  s.did fun d =>
    d.onExpiry d.clc.retryTimer fun t =>
      close d (t.onClc fun clc => { clc with retryTimer := none, pendingId := true })

/-! ### Polling and cabin temperature (R33 to R36) -/

/-- POLL_DUE (R33). -/
def execPollDue (s : State) : Result :=
  s.did fun d =>
    d.onExpiry d.clc.pollTimer fun t =>
      close d
        (t.onClc fun clc => { clc with pollTimer := Timer.next clc.pollTimer Config.pollPeriod, pendingPoll := true })

/-- The change count of a STATUS compared with the last-seen value (R36). -/
def Device.compareCount (d : Device) (count : Nat) : Device :=
  match d.clc.changeCount with
  | none => d
  | some seen =>
    if seen = count then d else (d.onClc fun clc => { clc with changeCount := some count }).requestRead

/-- A STATUS taken: last STATUS, state CURRENT, change count compared (R34, R36). -/
def Device.takeStatus (d : Device) (payload : List Byte) : Device :=
  (d.onClc fun clc =>
    { clc with lastStatus := some ⟨statusTc payload, d.clock⟩, tcState := .current }).compareCount
      (statusChangeCount payload)

/-- STATUS (R34). -/
def execStatus (payload : List Byte) (s : State) : Result :=
  s.did fun d => close d (d.takeReply .status (lengthIs payload 3) fun _ d => d.takeStatus payload)

/-- TC_HELD (R35): 15 s have passed since the arrival of the last STATUS. -/
def execTcHeld (s : State) : Result :=
  s.did fun d =>
    match d.clc.tcState, d.clc.lastStatus with
    | .current, some status =>
      close d ((d.reach (status.arrived + Config.tcHeldAfter)).onClc fun clc => { clc with tcState := .held })
    | _, _ => d

/-- The cabin temperature becomes STALE, and with it the STALE flag, in every phase (R35, R93): DEDUCED (log entry 21),
unsafe. -/
def Device.becomeStale (d : Device) (status : LastStatus) : Device :=
  ((d.reach (status.arrived + Config.tcStaleAfter)).onClc fun clc => { clc with tcState := .stale }).onHp fun hp =>
    { hp with stale := true }

/-- TC_STALE (R35, R93): 120 s have passed since the arrival of the last STATUS; from CURRENT too where TC_HELD has not
been taken: DEDUCED (log entry 18), safe. -/
def execTcStale (s : State) : Result :=
  s.did fun d =>
    match d.clc.tcState, d.clc.lastStatus with
    | .current, some status | .held, some status => close d (d.becomeStale status)
    | _, _ => d

end Sys2Proof.Machine
end

