-- ==== Sys2Proof/Machine/Departure.lean ====
section
/-! DEFINITION. The commands of the presence sensor, the intent window, the spacing timer and the aspect (Chapter 7). -/

namespace Sys2Proof.Machine

/-- The presence timer after a change of the sensor in DEPARTING: restarted at 3 s with no vehicle, stopped with one;
without a fitted sensor the pin is not read (R136). -/
def Device.followPresence (d : Device) : Device :=
  if d.cu.phase = .departing ∧ d.conf.presenceFitted = true then
    d.onCu fun cu => { cu with presence := if d.pins.vehicle then none else d.timer Config.presenceSensed }
  else d

/-- PRESENCE_CHANGE (R136). -/
def execPresenceChange (vehicle : Bool) (s : State) : Result :=
  s.did fun d =>
    if d.pins.vehicle = vehicle then d else (d.onPins fun pins => { pins with vehicle := vehicle }).followPresence

/-- PRESENCE_TIMER_EXPIRY (R136). -/
def execPresenceTimerExpiry (s : State) : Result :=
  s.did fun d =>
    d.onExpiry d.cu.presence fun t => if d.cu.phase = .departing then close d (t.setPhase .vacant) else d

/-- INTENT_WINDOW_EXPIRY (R130). -/
def execIntentWindowExpiry (s : State) : Result :=
  s.did fun d =>
    d.onExpiry d.cu.intentTimer fun t => if d.cu.phase = .clearing then close d (t.setPhase .cleared) else d

/-- SPACING_TIMER_EXPIRY (R127). -/
def execSpacingTimerExpiry (s : State) : Result :=
  s.did fun d => d.onExpiry d.cu.spacing fun t => close d (t.onCu fun cu => { cu with spacing := none })

/-- ASPECT_FLASH (R138): the half-period is over and the lamp toggles. -/
def execAspectFlash (s : State) : Result :=
  s.did fun d =>
    d.onExpiry d.cu.flash fun t =>
      t.onCu fun cu => { cu with lit := !cu.lit, flash := Timer.next cu.flash Config.flashHalf }

end Sys2Proof.Machine
end

