-- ==== Sys2Proof/Machine/DepotLine.lean ====
section
/-! DEFINITION. The commands of the Depot Line: quiet, backoff, sending, collisions, reception, Peer Table (Chapter 8;
R127 to R129, R160 to R162). -/

namespace Sys2Proof.Machine

/-! ### Contest (R127 to R129) -/

/-- The bay returns from CLEARING to READY by a drop or a lost contest, and sets the retry hold (R128, R129). -/
def Device.loseContest (d : Device) : Device :=
  (d.setPhase .ready).onCu fun cu => { cu with retryHold := true }

/-- One key is lower than another: by M, then by station number (R129). -/
def ContestKey.lower (a b : ContestKey) : Bool :=
  decide (a.minutes < b.minutes) || (a.minutes == b.minutes && decide (a.station < b.station))

/-- A peer's CLEARING NOTICE beats the own key in WINDOW (R129). An entry without M never does. -/
def Device.beatenBy (d : Device) (e : PeerEntry) : Bool :=
  match d.cu.key, e.minutes with
  | some key, some minutes =>
    d.cu.phase == .clearing && d.cu.intent == .window && e.phase == .clearing
      && ContestKey.lower ⟨minutes, e.station⟩ key
  | _, _ => false

/-- A peer transition into CLEARED restarts the spacing timer, and in CLEARING that is a lost contest (R127, R129). -/
def Device.peerCleared (d : Device) : Device :=
  let d := d.onCu fun cu => { cu with spacing := d.spacingTimer }
  if d.cu.phase = .clearing then d.loseContest else d

/-- What a new or refreshed entry does to the spacing timer and the contest (R127, R129, R151). -/
def Device.contest (d : Device) (e : PeerEntry) : Device :=
  let d := if e.intoCleared then d.peerCleared else d
  if d.beatenBy e then d.loseContest else d

/-- A dropped NOTICE at the CU: the first that shows CLEARING, still awaited, returns the bay to READY (R128), also where
its snapshot is from an earlier stay in CLEARING: DESIGN CHOICE (log entry 37), unsafe. -/
def Device.noticeDropped (d : Device) (snap : Snapshot) : Device :=
  if snap.phase = .clearing ∧ d.cu.phase = .clearing ∧ d.cu.intent = .awaiting then d.loseContest else d

/-- A completed NOTICE at the CU: the first that shows CLEARING records the key and starts the intent window; a later
one replaces the M of the key (R128). One whose snapshot is from an earlier stay in CLEARING counts like any other:
DESIGN CHOICE (log entry 37), unsafe. -/
def Device.noticeShown (d : Device) (snap : Snapshot) : Device :=
  if snap.phase = .clearing ∧ d.cu.phase = .clearing then
    match d.cu.intent with
    | .none => d
    | .awaiting =>
      d.onCu fun cu =>
        { cu with
          intent := .window, intentTimer := d.timer Config.intentWindow,
          key := some ⟨snap.minutes.getD 65535, d.conf.station⟩ }
    | .window => d.onCu fun cu => { cu with key := some ⟨snap.minutes.getD 65535, d.conf.station⟩ }
  else d

/-! ### Completion and drop (R14, R106, R145, R146) -/

/-- A section at the completion of a NOTICE: DIRTY in the snapshot and DIRTY now with a clear mark becomes CLEAN
(R14). -/
def Section.completed (x : Section) (snap : SectionStatus) : Section :=
  if snap = .dirty ∧ x.status = .dirty ∧ x.mark = false then { x with status := .clean } else x

/-- The four sections at the completion of a NOTICE (R14). -/
def Device.completeSections (d : Device) (snap : Snapshot) : Device :=
  d.onSc fun sc =>
    { sc with
      phase := sc.phase.completed snap.phaseStatus, heat := sc.heat.completed snap.heatStatus,
      lamp := sc.lamp.completed snap.lampStatus, fault := sc.fault.completed snap.faultStatus }

/-- The frame in flight leaves the line and the queue. -/
def Device.endFlight (d : Device) : Device := d.onLu fun lu => { lu with flight := none, sending := false }

/-- The own attempt ends with the frame complete: the receiver is IDLE and waits for quiet (R141, R146). -/
def Device.completeFlight (d : Device) : Device := d.endFlight.leaveFrame .idle

/-- The NOTICE in flight whose attempt is being driven. -/
def Lu.sendingNotice (lu : Lu) : Option Snapshot :=
  match lu.sending, lu.flight with
  | true, some ⟨.notice snap, _, _⟩ => some snap
  | _, _ => none

/-- NOTICE_COMPLETION (R146): section statuses (R14), announced claim and pending raise (R106), intent window (R128). -/
def execNoticeCompletion (s : State) : Result :=
  s.did fun d =>
    match d.lu.sendingNotice with
    | none => d
    | some snap =>
      close (d.completeFlight.completeSections snap)
        (((d.completeFlight.completeSections snap).announce snap.q).noticeShown snap)

/-- A LIST has left the queue: a place is free and the reply offers its next frame (R146, R167). The moment is kept for
a QUERY that falls at it (R168). -/
def Device.listLeaves (d : Device) : Device := d.lineEventNow.continueReply

/-- LIST_COMPLETION (R146). -/
def execListCompletion (s : State) : Result :=
  s.did fun d => if d.lu.sendingList then close d d.completeFlight.listLeaves else d

/-- The content of a dropped frame handed on (R146). -/
def Device.handDrop (d : Device) : FlightContent → Device
  | .notice snap => d.noticeDropped snap
  | .list _ => d.listLeaves

/-- The own attempt is over without completing: the station drives no more, its receiver goes on with the frame on the
line (R145). -/
def Device.stopDriving (d : Device) : Device := d.lineBusy.onLu fun lu => { lu with sending := false }

/-- A failed attempt of the frame in flight: below 6 it stays in flight with one failed attempt more, at 6 it is dropped
(R146). -/
def Device.failAttempt (d : Device) (flight : Flight) : Device :=
  if flight.failed + 1 < Config.maxAttempts then
    d.onLu fun lu => { lu with flight := some { flight with failed := flight.failed + 1 } }
  else (d.endFlight.countDropped).handDrop flight.content

/-- COLLISION (R145). -/
def execCollision (s : State) : Result :=
  s.did fun d =>
    match d.lu.sending, d.lu.flight with
    | true, some flight => close d (d.stopDriving.countCollision.failAttempt flight)
    | _, _ => d

/-! ### The line (R141, R142, R144, R148) -/

/-- LINE_QUIET (R141): SKIPPING ends, and a pending send starts its backoff (R144). -/
def execLineQuiet (s : State) : Result :=
  s.did fun d =>
    if d.sc.mode.hears && !d.lu.sending then
      d.onExpiry d.lu.quietTimer fun t =>
        (t.onLu fun lu =>
          { lu with
            quiet := true, quietTimer := none,
            receiver := if lu.receiver = .skipping then .idle else lu.receiver }).seekLine
    else d

/-- A start bit of another node (R141, R144): after quiet it begins a frame and ends a backoff; before quiet it belongs
to no frame. Either way the 15 bit times count again. -/
def Device.startBit (d : Device) : Device :=
  if d.lu.quiet then
    d.lineBusy.onLu fun lu =>
      { lu with backoff := none, receiver := if lu.receiver = .idle then .assembling else lu.receiver }
  else d.lineBusy

/-- LINE_START_BIT (R141). -/
def execLineStartBit (s : State) : Result :=
  s.did fun d => if d.sc.mode.hears && !d.lu.sending then d.startBit else d

/-- BACKOFF_EXPIRY (R144). -/
def execBackoffExpiry (s : State) : Result :=
  s.did fun d =>
    if d.sc.mode.speaks && d.lu.quiet then d.onExpiry d.lu.backoff fun t => t.chooseFrame.beginAttempt else d

/-- NOTICE_HOLDBACK_EXPIRY (R148). -/
def execNoticeHoldbackExpiry (s : State) : Result :=
  s.did fun d =>
    match d.lu.lastNotice with
    | none => d
    | some t => (d.reach (t + Config.noticeSpacing)).seekLine

/-- LINE_GAP_TIMEOUT (R142): the receiver is IDLE directly, and the gap is counted. The quiet of the line is left to
LINE_QUIET: DEDUCED (log entry 23), safe. -/
def execLineGapTimeout (s : State) : Result :=
  s.did fun d => if d.receives then (d.onLu fun lu => { lu with receiver := .idle }).countGap else d

/-- What was found at the CRC byte: a wrong CRC, or its own framing error (R142). -/
def foundAtCrc : FrameFault → Bool
  | .crc => true
  | .framing inCrc => inCrc
  | .notPre | .kind | .address | .length => false

/-- FRAME_FORMAT_ERROR (R142). -/
def execFrameFormatError (found : FrameFault) (s : State) : Result :=
  s.did fun d => if d.receives then d.discardFrame (foundAtCrc found) else d

/-! ### Station Control at a valid frame (R143, R160 to R162) -/

/-- The LU stops at the entry to CONFLICT: nothing is driven, the queue is emptied, the reply in progress ends, and an
abandoned NOTICE is handed to the CU as a drop; neither counter moves (R150, R166). -/
def Device.silence (d : Device) : Device :=
  let flight := d.lu.flight
  let d := d.onLu fun lu =>
    { lu with backoff := none, sending := false, flight := none, unbegun := false, lists := [], reply := none }
  match flight with
  | some ⟨.notice snap, _, _⟩ => d.noticeDropped snap
  | _ => d

/-- NUMBER_CONFLICT latched and the conflict quiet timer started at 60 s (R162). -/
def Device.latchConflict (d : Device) : Device :=
  d.onSc fun sc =>
    { sc with
      alarms := { sc.alarms with numberConflict := true }, conflictTimer := d.timer Config.conflictQuiet }

/-- Entry to CONFLICT (R162). The LU stops before STATION joins the block set: DEDUCED (log entry 13), unsafe. -/
def Device.enterConflict (d : Device) : Device :=
  let d := d.silence.latchConflict
  let d := d.onSc fun sc => { sc with mode := .conflict, rejoin := none, listenTimer := none }
  d.onHcu fun hcu => { hcu with rejoinCap := none }

/-- A number conflict reported to SC (R143, R162): in CONFLICT it restarts the quiet timer. The moment is kept for a QUERY
that falls at it (R168). -/
def Device.numberConflict (d : Device) : Device :=
  if d.sc.mode.speaks then d.lineEventNow.enterConflict else d.lineEventNow.latchConflict

/-- Line activity handed to SC (R143, R160): the silence timer restarts, and in ISOLATED the first frame begins a rejoin
period with its cap (R115, R161). -/
def Device.lineActivity (d : Device) : Device :=
  let d := d.onSc fun sc => { sc with silence := d.timer Config.silenceTime }
  if d.sc.mode = .isolated ∧ d.sc.rejoin = none then
    (d.onSc fun sc => { sc with rejoin := some 2 }).onHcu fun hcu => { hcu with rejoinCap := some hcu.stage }
  else d

/-- FROM is 1..63 and TO is 0..63 (R142). -/
def addressesOk (sender dest : Byte) : Bool :=
  decide (1 ≤ sender.toNat) && decide (sender.toNat ≤ 63) && decide (dest.toNat ≤ 63)

/-- The end of a frame that the receiver has assembled (R142, R143). A FROM, TO or LEN out of its range discards it
(DEDUCED, log entry 7, safe). The own number in FROM is a number conflict and used for nothing else; any other frame is
line activity, which is taken first, and goes to `use` (the order: DESIGN CHOICE, log entry 32, unsafe). -/
def Device.takeFrame (d : Device) (sender dest : Byte) (lengthOk : Bool) (use : Device → Device) : Device :=
  if !(addressesOk sender dest && lengthOk) then d.discardFrame false
  else if sender.toNat = d.conf.station then close d (d.leaveFrame .idle).numberConflict
  else close d (use (d.leaveFrame .idle).lineActivity)

/-- A valid frame with the own number may end at the moment at which a QUERY is accepted (R168): DESIGN CHOICE (log entry
35), safe. -/
def Device.conflictBesideQuery (d : Device) (sender dest : Byte) (lengthOk : Bool) : Bool :=
  d.atLineEvent && addressesOk sender dest && lengthOk && sender.toNat == d.conf.station

/-- A frame of another node at its end: without a frame being assembled nothing is received (R141), but for a number
conflict beside a QUERY (R168). -/
def Device.receiveFrame (d : Device) (sender dest : Byte) (lengthOk : Bool) (use : Device → Device) : Device :=
  if d.receives || d.conflictBesideQuery sender dest lengthOk then d.takeFrame sender dest lengthOk use else d

/-! ### NOTICE, LIST, Peer Table (R143, R151, R152) -/

/-- The Peer Table with the entry of a NOTICE made or refreshed (R151). -/
def Device.putNotice (d : Device) (entry : PeerEntry) : Device :=
  d.onLu fun lu => { lu with peers := putPeer entry lu.peers }

/-- A NOTICE of a peer (R151): refused as a format error, or entered, and the entry handed to the CU, which evaluates
LANE and then tests it for a transition into CLEARED and for a CLEARING key. -/
def Device.takeNotice (d : Device) (station : Nat) (payload : List Byte) : Device :=
  if noticeOk payload then
    (close d (d.putNotice
      (noticeEntry station payload ((findPeer d.lu.peers station).map PeerEntry.phase) d.clock))).contest
        (noticeEntry station payload ((findPeer d.lu.peers station).map PeerEntry.phase) d.clock)
  else d.countFormat

/-- NOTICE_RECEIVED (R151). -/
def execNoticeReceived (sender dest : Byte) (payload : List Byte) (s : State) : Result :=
  s.did fun d => d.receiveFrame sender dest (lengthIs payload 16) fun d => d.takeNotice sender.toNat payload

/-- LIST_RECEIVED (R143): ignored apart from counting as line activity. -/
def execListReceived (sender dest : Byte) (s : State) : Result :=
  s.did fun d => d.receiveFrame sender dest true fun d => d

/-- PEER_ENTRY_EXPIRY (R152): the entry is removed, and LANE is evaluated. -/
def execPeerEntryExpiry (station : Nat) (s : State) : Result :=
  s.did fun d =>
    match findPeer d.lu.peers station with
    | none => d
    | some e =>
      close d ((d.reach (e.heard + Config.peerExpiry)).onLu fun lu => { lu with peers := dropPeer station lu.peers })

end Sys2Proof.Machine
end

