-- ==== Sys2Proof/Machine/DispatchRequests.lean ====
section
/-! DEFINITION. The commands of the dispatch nodes: PLAN, HOLD, ACKNOWLEDGE and QUERY (Chapter 10; R4, R5, R16, R17,
R124, R166). -/

namespace Sys2Proof.Machine

/-! ### The three checks (R164) -/

/-- FROM equals a dispatch number of a slot that is used (R164). -/
def StationConfig.authorises (conf : StationConfig) (sender : Nat) : Bool :=
  (conf.dispatch1 != 0 && sender == conf.dispatch1) || (conf.dispatch2 != 0 && sender == conf.dispatch2)

/-- A dispatch frame for this station: ignored with any TO but 0 and the own number (R143), then checked for
authorisation and addressing (R164). -/
def Device.takeDispatch (d : Device) (sender dest : Nat) (broadcast : Bool) (accept : Device → Device) : Device :=
  if dest ≠ 0 ∧ dest ≠ d.conf.station then d
  else if !d.conf.authorises sender then d.countUnauthorised
  else if dest = 0 ∧ broadcast = false then d.countFormat
  else accept d

/-- A dispatch frame from its reception on (R143, R164). -/
def Device.dispatchFrame (d : Device) (sender dest : Byte) (lengthOk broadcast : Bool) (accept : Device → Device) :
    Device :=
  d.receiveFrame sender dest lengthOk fun d => d.takeDispatch sender.toNat dest.toNat broadcast accept

/-! ### Plan (R4, R5, R10, R96) -/

/-- A PLAN without CANCEL stored: the whole plan is replaced, HEAT reached is cleared by a different Tt or a plan made
where none was, the mask is applied, and a plan that differs is a change of PHASE content (R5, R10, R13, R96). -/
def Device.storePlan (d : Device) (plan : Plan) : Device :=
  let old := d.cu.plan
  let d := d.onCu fun cu => { cu with plan := some plan }
  let d := d.onHp fun hp => { hp with reached := hp.reached && decide (old.map Plan.target = some plan.target) }
  let d := d.applyMask
  if old = some plan then d else d.touchPhase

/-- A PLAN with CANCEL: the stored plan is removed with its LATE and its masked flags; with none stored nothing changes
(R4, R10). -/
def Device.cancelPlan (d : Device) : Device :=
  if d.cu.plan.isNone then d
  else (d.onCu fun cu => { cu with plan := none }).applyMask.touchPhase

/-- PLAN (R5). -/
def execPlan (sender dest : Byte) (payload : List Byte) (s : State) : Result :=
  s.did fun d => d.dispatchFrame sender dest (lengthIs payload 8) false fun d => d.storePlan (readPlan payload)

/-- PLAN_CANCEL (R4): the other fields of the frame are not used. -/
def execPlanCancel (sender dest : Byte) (payload : List Byte) (s : State) : Result :=
  s.did fun d => d.dispatchFrame sender dest (lengthIs payload 8) false Device.cancelPlan

/-! ### Hold, acknowledgement (R16, R17, R124) -/

/-- HOLD (R124): the hold lane set is replaced whole. -/
def execHold (sender dest : Byte) (payload : List Byte) (s : State) : Result :=
  s.did fun d =>
    d.dispatchFrame sender dest (lengthIs payload 2) true fun d =>
      d.onCu fun cu => { cu with holdLanes := readLanes payload }

/-- The latches that are left when the named ones are cleared (R16). -/
def Alarms.without (a named : Alarms) : Alarms where
  pullout := a.pullout && !named.pullout
  overcurrent := a.overcurrent && !named.overcurrent
  contactorFail := a.contactorFail && !named.contactorFail
  linkLost := a.linkLost && !named.linkLost
  signalRedFail := a.signalRedFail && !named.signalRedFail
  numberConflict := a.numberConflict && !named.numberConflict
  shedLineFault := a.shedLineFault && !named.shedLineFault
  probeFault := a.probeFault && !named.probeFault

/-- The named latches are cleared together; clearing OVERCURRENT releases its lockout and clearing CONTACTOR_FAIL
re-arms the contactor check (R16, R17). SHED_LINE_FAULT is read by the grant itself (R101). -/
def Device.clearAlarms (d : Device) (named : Alarms) : Device :=
  let was := d.sc.alarms
  (d.onAlarms fun a => a.without named).onHcu fun hcu =>
    { hcu with
      overLockout := hcu.overLockout && !(was.overcurrent && named.overcurrent),
      armed := hcu.armed || (was.contactorFail && named.contactorFail) }

/-- ACKNOWLEDGE (R16). -/
def execAcknowledge (sender dest : Byte) (payload : List Byte) (s : State) : Result :=
  s.did fun d =>
    d.dispatchFrame sender dest (lengthIs payload 1) false fun d => d.clearAlarms (readAlarms payload)

/-! ### Queries (R164 to R168) -/

/-- A QUERY from its reception on: it is also received at the moment a LIST of the station leaves its queue or a number
conflict is reported (R168). -/
def Device.queryFrame (d : Device) (sender dest : Byte) (accept : Device → Device) : Device :=
  if d.receives || d.queryBesideEvent then
    d.takeFrame sender dest true fun d => d.takeDispatch sender.toNat dest.toNat false accept
  else d

/-- QUERY_LAMPS (R82). -/
def execQueryLamps (sender dest start : Byte) (s : State) : Result :=
  s.did fun d => d.queryFrame sender dest fun d => d.startReply .lamps sender.toNat start.toNat

/-- QUERY_FAULTS (R61). -/
def execQueryFaults (sender dest start : Byte) (s : State) : Result :=
  s.did fun d => d.queryFrame sender dest fun d => d.startReply .faults sender.toNat start.toNat

/-- QUERY_HEAT (R117). -/
def execQueryHeat (sender dest start : Byte) (s : State) : Result :=
  s.did fun d => d.queryFrame sender dest fun d => d.startReply .heat sender.toNat start.toNat

/-- QUERY_LINE (R153). -/
def execQueryLine (sender dest start : Byte) (s : State) : Result :=
  s.did fun d => d.queryFrame sender dest fun d => d.startReply .line sender.toNat start.toNat

/-- QUERY_UNKNOWN_SUBJECT (R164): a frame that passes authorisation and addressing is discarded for its content and
counted as a CRC and format error. -/
def execQueryUnknownSubject (sender dest _subject _start : Byte) (s : State) : Result :=
  s.did fun d => d.queryFrame sender dest Device.countFormat

end Sys2Proof.Machine
end

