-- ==== Sys2Proof/Machine/FaultReading.lean ====
section
/-! DEFINITION. The commands of fault reading (Chapter 3). -/

namespace Sys2Proof.Machine

/-- OPENED (R45). -/
def execOpened (payload : List Byte) (s : State) : Result :=
  s.did fun d =>
    close d (d.takeReply .opened (lengthIs payload 1) fun _ d => d.readOpened (openedAvailable payload))

/-- One record merged, with what follows from it before the next (R53, R57, R59). -/
def Device.mergeRecord (d : Device) (r : FaultRecord) : Device :=
  close d (d.onFtu fun ftu => ftu.merge d.conf.restrictive r)

/-- An accepted RECORDS frame in the order of R46. -/
def Device.acceptFrame (d : Device) (read : CurrentRead) (payload : List Byte) : Device :=
  let d := d.onFtu fun ftu => { ftu with busyCount := 0 }
  let d := (recordsOf payload).foldl Device.mergeRecord d
  let d := d.onFtu fun ftu => ftu.frameTaken read (recordsOf payload).length
  d.afterFrame (recordsEnd payload)

/-- RECORDS at the FTU: accepted with the expected toggle, otherwise a duplicate that is discarded (R46, R47). -/
def Device.readRecords (d : Device) (payload : List Byte) : Device :=
  match d.ftu.read with
  | none => d
  | some read =>
    if recordsToggle payload = d.ftu.toggle then d.acceptFrame read payload else d.countBusy Device.offerAgain

/-- RECORDS (R46). -/
def execRecords (payload : List Byte) (s : State) : Result :=
  s.did fun d =>
    close d (d.takeReply .records (recordsLength payload.length) fun _ d => d.readRecords payload)

/-- BUSY (R47). -/
def execBusy (s : State) : Result := s.did fun d => close d (d.takeReply .busy true fun _ d => d.readBusy)

/-- BUSY_RETRY_EXPIRY (R47). -/
def execBusyRetryExpiry (s : State) : Result :=
  s.did fun d =>
    d.onExpiry d.ftu.busyWait fun t => close d (t.onFtu fun ftu => { ftu with busyWait := none }).offerAgain

/-- FAULT_REFRESH_EXPIRY (R44). -/
def execFaultRefreshExpiry (s : State) : Result :=
  s.did fun d =>
    d.onExpiry d.ftu.refreshTimer fun t =>
      close d (t.onFtu fun ftu => { ftu with refreshTimer := none }).requestRead

/-- FAULT_PENDING_AGE_EXPIRY (R60). -/
def execFaultPendingAgeExpiry (s : State) : Result :=
  s.did fun d =>
    d.onExpiry d.ftu.ageTimer fun t => close d (t.onFtu fun ftu => { ftu with ageTimer := none })

end Sys2Proof.Machine
end

