-- ==== Sys2Proof/Machine/Heater.lean ====
section
/-! DEFINITION. The commands of the Shed Line and of the heater current monitor (Chapter 6). -/

namespace Sys2Proof.Machine

/-! ### Shed Line (R108, R109) -/

/-- The shed filter after a change of level: it counts 50 ms while the level disagrees with the sense, and not while the
device is held in reset (R108, R154). -/
def Device.shedFilterNow (d : Device) : Timer :=
  if d.sc.startStep = .held ∨ d.hcu.asserted = !d.pins.shedHigh then none else d.timer Config.shedDebounce

/-- SHED_PIN_CHANGE (R108). -/
def execShedPinChange (high : Bool) (s : State) : Result :=
  s.did fun d =>
    if d.pins.shedHigh = high then d
    else
      let d := d.onPins fun pins => { pins with shedHigh := high }
      d.onHcu fun hcu => { hcu with shedFilter := d.shedFilterNow }

/-- SHED_ASSERTED (R108): the filter has counted a low line while the sense was RELEASED. -/
def execShedAsserted (s : State) : Result :=
  s.did fun d =>
    if d.hcu.asserted = false ∧ d.pins.shedHigh = false then
      d.onExpiry d.hcu.shedFilter fun t =>
        close d
          (t.onHcu fun hcu =>
            { hcu with asserted := true, shedFilter := none, shedFlag := true, holdOff := none, raise := none })
    else d

/-- The release hold-off (R109): 500 ms + 100 ms × the station number. -/
def Device.holdOffTimer (d : Device) : Timer :=
  d.timer (Config.holdOffBase + Config.holdOffStep * d.conf.station)

/-- The sense becomes RELEASED: the hold-off starts; with no configuration image held none starts and SHED is cleared
(R109). -/
def Device.releaseShed (d : Device) : Device :=
  d.onHcu fun hcu =>
    { hcu with
      asserted := false, shedFilter := none,
      holdOff := if d.sc.config.isSome then d.holdOffTimer else none,
      shedFlag := hcu.shedFlag && d.sc.config.isSome }

/-- SHED_RELEASED (R109): the filter has counted a high line while the sense was ASSERTED. -/
def execShedReleased (s : State) : Result :=
  s.did fun d =>
    if d.hcu.asserted = true ∧ d.pins.shedHigh = true then
      d.onExpiry d.hcu.shedFilter fun t => close d t.releaseShed
    else d

/-- HOLD_OFF_EXPIRY (R109). -/
def execHoldOffExpiry (s : State) : Result :=
  s.did fun d =>
    d.onExpiry d.hcu.holdOff fun t => close d (t.onHcu fun hcu => { hcu with holdOff := none, shedFlag := false })

/-! ### Current monitor (R112, R113) -/

/-- MEASURED_POWER_CHANGE (R112): the monitor follows the new draw. -/
def execMeasuredPowerChange (watts : Nat) (s : State) : Result :=
  s.did fun d => close d (d.onPins fun pins => { pins with power := watts })

/-- An overdraw held for 1 s: OVERCURRENT, the overcurrent lockout, and an OVERCURRENT pull (R112, R114). -/
def Device.overcurrent (d : Device) : Device :=
  ((d.onAlarms fun a => { a with overcurrent := true }).onHcu fun hcu => { hcu with overLockout := true }).beginPull
    .overcurrent

/-- OVERCURRENT_TIMING_EXPIRY (R112). -/
def execOvercurrentTimingExpiry (s : State) : Result :=
  s.did fun d =>
    if d.hcu.monitor = .overTiming then d.onExpiry d.hcu.monitorTimer fun t => close d t.overcurrent else d

/-- CONTACTOR_FAIL latched and the contactor check disarmed (R112, R113). -/
def Device.contactorFails (d : Device) : Device :=
  (d.onAlarms fun a => { a with contactorFail := true }).onHcu fun hcu => { hcu with armed := false }

/-- STUCK_TIMING_EXPIRY (R113). -/
def execStuckTimingExpiry (s : State) : Result :=
  s.did fun d =>
    if d.hcu.monitor = .stuckTiming then
      d.onExpiry d.hcu.monitorTimer fun t => close d (t.contactorFails.beginPull .contactor)
    else d

/-- The 10 s of a pull are over: an OVERCURRENT pull with the draw still above 5 % of Pfull latches CONTACTOR_FAIL; the
pull is released and the monitor watches again (R112, R113). -/
def Device.endPull (d : Device) : Device :=
  (if d.hcu.pull = .overcurrent ∧ d.draws = true then d.contactorFails else d).onHcu fun hcu =>
    { hcu with pull := .none, pullTimer := none, monitor := .watching, monitorTimer := none }

/-- SHED_PULL_EXPIRY (R112, R113). -/
def execShedPullExpiry (s : State) : Result :=
  s.did fun d => d.onExpiry d.hcu.pullTimer fun t => close d t.endPull

end Sys2Proof.Machine
end

