-- ==== Sys2Proof/Machine/LampCheck.lean ====
section
/-! DEFINITION. The commands of the lamp check (Chapter 4; R110). -/

namespace Sys2Proof.Machine

/-- The end of the measurement of channel `num`: discarded under a stop, which then takes effect (R78); otherwise judged
and entered, and the pass goes on or ends (R66, R74). -/
def Device.endMeasurement (d : Device) (num millivolts milliamps supply : Nat) : Device :=
  if d.ltu.stop then d.dropPass
  else
    (d.enterJudgement num (d.judge num millivolts milliamps supply) millivolts milliamps).nextMeasurement

/-- MEASUREMENT_END (R66). The values are stored as sampled: DESIGN CHOICE (log entry 19), safe. -/
def execMeasurementEnd (millivolts milliamps supply : Nat) (s : State) : Result :=
  s.did fun d =>
    match d.ltu.measuring with
    | none => d
    | some num =>
      d.onExpiry d.ltu.measureTimer fun t => close d (t.endMeasurement num millivolts milliamps supply)

/-- RETEST_TIMER_EXPIRY (R71). -/
def execRetestTimerExpiry (s : State) : Result :=
  s.did fun d =>
    d.onExpiry d.ltu.retestTimer fun t =>
      close d (t.onLtu fun ltu => { ltu with retestTimer := none, pendingRetest := true })

/-- FULL_PASS_TIMER_EXPIRY (R72). -/
def execFullPassTimerExpiry (s : State) : Result :=
  s.did fun d =>
    d.onExpiry d.ltu.fullTimer fun t =>
      close d (t.onLtu fun ltu => { ltu with fullTimer := none, pendingFull := true })

/-- FULL_PASS_AGE_EXPIRY (R79). -/
def execFullPassAgeExpiry (s : State) : Result :=
  s.did fun d =>
    d.onExpiry d.ltu.ageTimer fun t => close d (t.onLtu fun ltu => { ltu with ageTimer := none })

/-- SIGNAL_PASS_TIMER (R73): a period that ends outside RUN and ISOLATED brings no pass due. -/
def execSignalPassTimer (s : State) : Result :=
  s.did fun d =>
    d.onExpiry d.ltu.signalTimer fun t =>
      close d
        (t.onLtu fun ltu =>
          { ltu with
            signalTimer := Timer.next ltu.signalTimer Config.signalPassPeriod,
            pendingSignal := ltu.pendingSignal || d.sc.mode.heats })

/-- WINDOW_SETTLING_EXPIRY (R110): the window is EFFECTIVE and the limit effective is reported to the LTU (R75). -/
def execWindowSettlingExpiry (s : State) : Result :=
  s.did fun d =>
    d.onExpiry d.hcu.settling fun t =>
      close d (t.onHcu fun hcu => { hcu with window := .effective, settling := none }).limitEffective

end Sys2Proof.Machine
end

