-- ==== Sys2Proof/Machine/StationModes.lean ====
section
/-! DEFINITION. Reset, start, the station modes and the two ticks (Chapter 9; R7, R98, R99). -/

namespace Sys2Proof.Machine

/-! ### Reset (R154) -/

/-- Every block held at its reset value; the input filters do not count (R154). -/
def Device.heldInReset (d : Device) : Device := Device.resetBlocks d.clock d.pins .held none none

/-- Reset is over: every block at its reset value, the mode START, the configuration read begun, and the plug and shed
filters counting from their pins (R26, R108, R154). DEDUCED (log entry 4), safe. -/
def Device.outOfReset (d : Device) : Device :=
  Device.resetBlocks d.clock d.pins .reading
    (if d.pins.plug then d.timer Config.plugDebounce else none)
    (if d.pins.shedHigh then none else d.timer Config.shedDebounce)

/-- POWER_ON (R154): it stands for the whole time from power-on until the supply is good, and its next state is that of
the moment at which the supply becomes good; no command falls between the two. With the RESET pin high the device is out
of reset then, with the pin low it stays held. That the command stands for that moment is a DESIGN CHOICE (log entry 39),
unsafe. -/
def execPowerOn (s : State) : Result := s.did fun d => if d.pins.reset then d.outOfReset else d.heldInReset

/-- RESET_ASSERT (R154). -/
def execResetAssert (s : State) : Result :=
  s.did fun d => (d.onPins fun pins => { pins with reset := false }).heldInReset

/-- RESET_RELEASE (R154): with the pin high already there is no release. -/
def execResetRelease (s : State) : Result :=
  s.did fun d => if d.pins.reset then d else (d.onPins fun pins => { pins with reset := true }).outOfReset

/-! ### Configuration and self test (R155 to R159) -/

/-- The image passes the checks of R155: 32 bytes read, the CRC over the first 31 equal to the last, station number and
lane fields other than 0. An image of another length fails them: DEDUCED (log entry 7), safe. -/
def imageOk (image : List Byte) : Bool :=
  image.length == 32 && crc8 (image.take 31) == image.getD 31 0#8 && byteAt image 0 != 0 && byteAt image 1 != 0

/-- The mode becomes HALT (R155, R158). -/
def Device.enterHalt (d : Device) : Device := d.onSc fun sc => { sc with mode := .halt, startStep := .over }

/-- The image is accepted: its clamped values become the configuration, fitted signal channels become INITIAL, and the
shed self test begins (R62, R155, R157). -/
def Device.acceptImage (d : Device) (image : List Byte) : Device :=
  let d := d.onSc fun sc =>
    { sc with config := some (readConfig image), startStep := .selfTest, selfTest := d.timer Config.selfTestPull }
  d.onLtu fun ltu => { ltu with channels := ltu.channels.map (Channel.fromConfig d.conf) }

/-- What the read of the configuration memory leads to (R155). -/
def Device.configurationRead (d : Device) : Option (List Byte) → Device
  | none => d.enterHalt
  | some image => if imageOk image then d.acceptImage image else d.enterHalt

/-- CONFIGURATION_READ (R155); it falls in START while the memory is being read. -/
def execConfigurationRead (answer : Option (List Byte)) (s : State) : Result :=
  s.did fun d =>
    if d.sc.mode = .start ∧ d.sc.startStep = .reading then close d (d.configurationRead answer) else d

/-- Entry to LISTEN (R73, R98, R159, R163): the LISTEN, silence, claim tick and signal pass timers start, a signal pass
falls due, and at the first entry since reset the minute tick timer starts and the receiver begins to listen (R139). -/
def Device.toListen (d : Device) : Device :=
  let first := d.sc.mode == .start
  let d := d.onSc fun sc =>
    { sc with
      mode := .listen, listenTimer := d.timer Config.listenTime, silence := d.timer Config.silenceTime,
      conflictTimer := none,
      minuteTimer := if sc.minuteTimer.isSome then sc.minuteTimer else d.timer Config.minutePeriod }
  let d := d.onHcu fun hcu => { hcu with claimTimer := d.timer (Config.claimOffset * d.conf.station) }
  let d := d.onLtu fun ltu => { ltu with pendingSignal := true, signalTimer := d.timer Config.signalPassPeriod }
  if first then d.lineBusy else d

/-- The end of an entry to LISTEN: what follows from it, and then PHASE becomes INITIAL with its change mark clear and
an early NOTICE is asked for (R12). -/
def Device.listenEntry (before after : Device) : Device :=
  ((close before after.toListen).onSc fun sc => { sc with phase := ⟨.initial, false⟩ }).requestNotice.seekLine

/-- The self test ends: a sample that reads high latches SHED_LINE_FAULT, and the line is released (R157). -/
def Device.endSelfTest (d : Device) (lineHigh : Bool) : Device :=
  d.onSc fun sc =>
    { sc with
      startStep := .over, selfTest := none,
      alarms := { sc.alarms with shedLineFault := sc.alarms.shedLineFault || lineHigh } }

/-- SHED_SELF_TEST_END (R157, R159). The sample is the operand: DESIGN CHOICE (log entry 6), safe. -/
def execShedSelfTestEnd (lineHigh : Bool) (s : State) : Result :=
  s.did fun d => d.onExpiry d.sc.selfTest fun t => d.listenEntry (t.endSelfTest lineHigh)

/-! ### Modes (R159 to R162) -/

/-- The mode becomes `mode`. -/
def Device.setMode (d : Device) (mode : Mode) : Device := d.onSc fun sc => { sc with mode := mode }

/-- LISTEN_TIMER_EXPIRY (R159). -/
def execListenTimerExpiry (s : State) : Result :=
  s.did fun d =>
    d.onExpiry d.sc.listenTimer fun t =>
      close d ((t.onSc fun sc => { sc with listenTimer := none }).setMode .run)

/-- SILENCE_TIMEOUT (R160): in modes other than RUN the passing of 10 s has no effect. The deadline that has passed stands
until the next line activity: DEDUCED (log entry 24), safe. -/
def execSilenceTimeout (s : State) : Result :=
  s.did fun d =>
    d.onExpiry d.sc.silence fun t => if d.sc.mode = .run then close d (t.setMode .isolated) else t

/-- The rejoin period ends: the mode becomes RUN and the rejoin cap is dropped (R115, R161). -/
def Device.endRejoin (d : Device) : Device :=
  (d.onSc fun sc => { sc with mode := .run, rejoin := none }).onHcu fun hcu => { hcu with rejoinCap := none }

/-- REJOIN_PERIOD_END (R161): it falls at the second claim tick after the period began. DEDUCED (log entry 9), safe. -/
def execRejoinPeriodEnd (s : State) : Result :=
  s.did fun d =>
    if d.sc.rejoin = some 1 then d.onExpiry d.hcu.claimTimer fun t => close d t.endRejoin else d

/-- CONFLICT_QUIET_EXPIRY (R162). -/
def execConflictQuietExpiry (s : State) : Result :=
  s.did fun d => d.onExpiry d.sc.conflictTimer fun t => d.listenEntry t

/-! ### Minute tick (R7, R163) -/

/-- One minute of the countdown: M goes down to 0, and LATE is set at M = 0 outside DEPARTING (R7). -/
def Plan.minute (plan : Plan) (phase : Phase) : Plan :=
  { plan with
    minutes := plan.minutes - 1,
    late := plan.late || (decide (plan.minutes ≤ 1) && phase != .departing) }

/-- MINUTE_TICK (R163). -/
def execMinuteTick (s : State) : Result :=
  s.did fun d =>
    d.onExpiry d.sc.minuteTimer fun t =>
      close d
        ((t.onSc fun sc => { sc with minuteTimer := Timer.next sc.minuteTimer Config.minutePeriod }).onCu fun cu =>
          { cu with plan := cu.plan.map fun plan => plan.minute cu.phase })

/-! ### Claim tick (R98, R99) -/

/-- A claim tick inside a rejoin period: the first counts, the second ends the period before its own work (R161). -/
def Device.countRejoin (d : Device) : Device :=
  match d.sc.rejoin with
  | none => d
  | some n => if n ≤ 1 then d.endRejoin else d.onSc fun sc => { sc with rejoin := some (n - 1) }

/-- The work of a claim tick in the order of R99, the retry hold cleared after it (R128). DEDUCED (log entry 8), unsafe. -/
def Device.claimTick (d : Device) (probe : Int) : Device :=
  let held := d.hcu.stage
  let d := d.countRejoin
  let d := d.hpTick probe
  let d := d.hcuTick
  let d := d.countEnergy held
  let d := d.requestNotice
  d.onCu fun cu => { cu with retryHold := false }

/-- CLAIM_TICK (R99). -/
def execClaimTick (probe : Int) (s : State) : Result :=
  s.did fun d =>
    d.onExpiry d.hcu.claimTimer fun t =>
      close d
        ((t.onHcu fun hcu => { hcu with claimTimer := Timer.next hcu.claimTimer Config.claimPeriod }).claimTick probe)

end Sys2Proof.Machine
end

