-- ==== Sys2Proof/Machine/Dispatch.lean ====
section
/-! DEFINITION. One arm per command: each calls the command's meaning. -/

namespace Sys2Proof.Machine

def exec (i : Instr) (s : State) : Host.Outcome State Fault Refusal :=
  match i with
  | .powerOn => Sys2Proof.Machine.execPowerOn s
  | .resetAssert => Sys2Proof.Machine.execResetAssert s
  | .resetRelease => Sys2Proof.Machine.execResetRelease s
  | .configurationRead answer => Sys2Proof.Machine.execConfigurationRead answer s
  | .shedSelfTestEnd lineHigh => Sys2Proof.Machine.execShedSelfTestEnd lineHigh s
  | .listenTimerExpiry => Sys2Proof.Machine.execListenTimerExpiry s
  | .silenceTimeout => Sys2Proof.Machine.execSilenceTimeout s
  | .rejoinPeriodEnd => Sys2Proof.Machine.execRejoinPeriodEnd s
  | .conflictQuietExpiry => Sys2Proof.Machine.execConflictQuietExpiry s
  | .minuteTick => Sys2Proof.Machine.execMinuteTick s
  | .claimTick probe => Sys2Proof.Machine.execClaimTick probe s
  | .plugPinChange seated => Sys2Proof.Machine.execPlugPinChange seated s
  | .plugPresent => Sys2Proof.Machine.execPlugPresent s
  | .unplug => Sys2Proof.Machine.execUnplug s
  | .requestSent => Sys2Proof.Machine.execRequestSent s
  | .attemptStart => Sys2Proof.Machine.execAttemptStart s
  | .replyTimeout => Sys2Proof.Machine.execReplyTimeout s
  | .replyGapTimeout => Sys2Proof.Machine.execReplyGapTimeout s
  | .replyFrameDiscarded found => Sys2Proof.Machine.execReplyFrameDiscarded found s
  | .identity payload => Sys2Proof.Machine.execIdentity payload s
  | .profile payload => Sys2Proof.Machine.execProfile payload s
  | .identificationRetryExpiry => Sys2Proof.Machine.execIdentificationRetryExpiry s
  | .pollDue => Sys2Proof.Machine.execPollDue s
  | .status payload => Sys2Proof.Machine.execStatus payload s
  | .tcHeld => Sys2Proof.Machine.execTcHeld s
  | .tcStale => Sys2Proof.Machine.execTcStale s
  | .opened payload => Sys2Proof.Machine.execOpened payload s
  | .records payload => Sys2Proof.Machine.execRecords payload s
  | .busy => Sys2Proof.Machine.execBusy s
  | .busyRetryExpiry => Sys2Proof.Machine.execBusyRetryExpiry s
  | .faultRefreshExpiry => Sys2Proof.Machine.execFaultRefreshExpiry s
  | .faultPendingAgeExpiry => Sys2Proof.Machine.execFaultPendingAgeExpiry s
  | .measurementEnd millivolts milliamps supply => Sys2Proof.Machine.execMeasurementEnd millivolts milliamps supply s
  | .retestTimerExpiry => Sys2Proof.Machine.execRetestTimerExpiry s
  | .fullPassTimerExpiry => Sys2Proof.Machine.execFullPassTimerExpiry s
  | .fullPassAgeExpiry => Sys2Proof.Machine.execFullPassAgeExpiry s
  | .signalPassTimer => Sys2Proof.Machine.execSignalPassTimer s
  | .windowSettlingExpiry => Sys2Proof.Machine.execWindowSettlingExpiry s
  | .shedPinChange high => Sys2Proof.Machine.execShedPinChange high s
  | .shedAsserted => Sys2Proof.Machine.execShedAsserted s
  | .shedReleased => Sys2Proof.Machine.execShedReleased s
  | .holdOffExpiry => Sys2Proof.Machine.execHoldOffExpiry s
  | .measuredPowerChange watts => Sys2Proof.Machine.execMeasuredPowerChange watts s
  | .overcurrentTimingExpiry => Sys2Proof.Machine.execOvercurrentTimingExpiry s
  | .stuckTimingExpiry => Sys2Proof.Machine.execStuckTimingExpiry s
  | .shedPullExpiry => Sys2Proof.Machine.execShedPullExpiry s
  | .presenceChange vehicle => Sys2Proof.Machine.execPresenceChange vehicle s
  | .presenceTimerExpiry => Sys2Proof.Machine.execPresenceTimerExpiry s
  | .intentWindowExpiry => Sys2Proof.Machine.execIntentWindowExpiry s
  | .spacingTimerExpiry => Sys2Proof.Machine.execSpacingTimerExpiry s
  | .aspectFlash => Sys2Proof.Machine.execAspectFlash s
  | .lineQuiet => Sys2Proof.Machine.execLineQuiet s
  | .backoffExpiry => Sys2Proof.Machine.execBackoffExpiry s
  | .noticeHoldbackExpiry => Sys2Proof.Machine.execNoticeHoldbackExpiry s
  | .collision => Sys2Proof.Machine.execCollision s
  | .noticeCompletion => Sys2Proof.Machine.execNoticeCompletion s
  | .listCompletion => Sys2Proof.Machine.execListCompletion s
  | .lineGapTimeout => Sys2Proof.Machine.execLineGapTimeout s
  | .frameFormatError found => Sys2Proof.Machine.execFrameFormatError found s
  | .noticeReceived sender dest payload => Sys2Proof.Machine.execNoticeReceived sender dest payload s
  | .plan sender dest payload => Sys2Proof.Machine.execPlan sender dest payload s
  | .planCancel sender dest payload => Sys2Proof.Machine.execPlanCancel sender dest payload s
  | .hold sender dest payload => Sys2Proof.Machine.execHold sender dest payload s
  | .acknowledge sender dest payload => Sys2Proof.Machine.execAcknowledge sender dest payload s
  | .queryLamps sender dest start => Sys2Proof.Machine.execQueryLamps sender dest start s
  | .queryFaults sender dest start => Sys2Proof.Machine.execQueryFaults sender dest start s
  | .queryHeat sender dest start => Sys2Proof.Machine.execQueryHeat sender dest start s
  | .queryLine sender dest start => Sys2Proof.Machine.execQueryLine sender dest start s
  | .listReceived sender dest => Sys2Proof.Machine.execListReceived sender dest s
  | .peerEntryExpiry station => Sys2Proof.Machine.execPeerEntryExpiry station s
  | .lineStartBit => Sys2Proof.Machine.execLineStartBit s
  | .replyFrameBegin => Sys2Proof.Machine.execReplyFrameBegin s
  | .queryUnknownSubject sender dest subject start => Sys2Proof.Machine.execQueryUnknownSubject sender dest subject start s

end Sys2Proof.Machine
end

