-- ==== Sys2Proof/Machine/Step.lean ====
section
/-! DEFINITION. One step: the command at the front of the queue, or one microsecond of time on an empty queue. -/

namespace Sys2Proof.Machine

/-- The machine with the rest of its queue. -/
def State.withPending (s : State) (rest : List Instr) : State := { s with pending := rest }

/-- On an empty queue one microsecond of the station clock passes: DESIGN CHOICE (log entry 2), unsafe. -/
def State.idle (s : State) : State := s.onDevice fun d => { d with clock := d.clock + 1 }

/-- One step: the front command runs on the state with the rest of the queue; on an empty queue time passes. Events at one
moment come in the order of the queue: DEDUCED (log entry 5), safe; how commands come into it: log entry 26. -/
def step (s : State) : Host.Outcome State Fault Refusal :=
  match s.pending with
  | [] => .next s.idle
  | c :: rest => exec c (s.withPending rest)

/-- The machine with a command put at the front of its queue. -/
def State.withCommand (s : State) (c : Instr) : State := { s with pending := c :: s.pending }

/-- The machine with the command that the word spells at the front of its queue, unchanged where it spells none. -/
def State.withFetchWord (s : State) (nbits w : Nat) : State :=
  match decodeTableWord nbits w with
  | none => s
  | some c => s.withCommand c

end Sys2Proof.Machine
end

