-- ==== Sys2Proof/Machine/Outputs.lean ====
section
/-! DEFINITION. The output pins (Table 58), each a function of the state: the heater stage code, the signal lamps, the
Shed Line, the Depot Line and the Coach Link. No meaning reads them. -/

namespace Sys2Proof.Machine

/-- HST0..HST2: the code s of the stage, least significant bit HST0 (R117). -/
def Device.stagePins (d : Device) : BitVec 3 := BitVec.ofNat 3 d.hcu.stage

/-- The own pull of the Shed Line: the self test of START (R157) or a shed pull (R112, R113). -/
def Device.pullsShed (d : Device) : Bool := d.sc.startStep == .selfTest || d.hcu.pull != .none

/-- The channel number of a lamp of the bay signal: RED 17, AMBER 18, GREEN 19. -/
def Lamp.channel : Lamp → Option Nat
  | .dark => none
  | .red => some 17
  | .amber => some 18
  | .green => some 19

/-- What a signal lamp pin carries: nothing, the drive of the aspect, or the test current (R65, R138). -/
inductive LampDrive where
  | off | aspect | test
  deriving DecidableEq, Repr

/-- The drive of a signal lamp pin: the test current while its channel is measured, else the aspect in its lit half
(R65, R138). -/
def Device.lampDrive (d : Device) (lamp : Lamp) : LampDrive :=
  if lamp ≠ .dark ∧ d.ltu.measuring = lamp.channel then .test
  else if d.cu.aspect.lamp = lamp ∧ d.cu.lit = true then .aspect
  else .off

/-- Bit `n`, from the start bit of PRE on, of the attempt being sent; none while none is sent and past the frame's last
stop bit (R140, R144). -/
def Device.depotLineBit (d : Device) (n : Nat) : Option Bool :=
  match d.lu.sending, d.lu.flight with
  | true, some flight => (lineBits flight.bytes)[n]?
  | _, _ => none

/-- DLA, DLB driven dominant by the station at bit `n` of an attempt: a 0 is driven, a 1 leaves the pair recessive (R139,
R145, R154). Where an attempt stands is not state (log entry 17). -/
def Device.drivesDepotLine (d : Device) (n : Nat) : Bool := d.depotLineBit n == some false

/-- CLK is driven while a request is being sent (R21, R154). -/
def Device.drivesCoachLink (d : Device) : Bool :=
  match d.clc.exchange with
  | none => false
  | some x => x.step == .sending

/-- Bit `n`, from the start bit of LEAD on, of the request being sent (R21). -/
def Device.coachLinkBit (d : Device) (n : Nat) : Option Bool :=
  match d.clc.exchange with
  | none => none
  | some x => if x.step = .sending then (lineBits x.request.bytes)[n]? else none

end Sys2Proof.Machine
end

