-- ==== Sys2Proof/Safety.lean ====
section
/-! DEFINITION. What the statements about the station speak of: what the following-up of an event (`close`) leaves
alone, and the invariants that every step keeps. -/

namespace Sys2Proof.Machine

/-! ### Following-up (Chapters 1, 6, 7, 8) -/

/-- What no following-up of an event writes, whatever happens: the clock, the inputs, the mode with its timers, the
configuration and the alarm latches, the plan and the hold lane set, the plug state, the probe values, the shed sense
with its flag and hold-off, the overcurrent lockout, the rejoin cap, Qa, the contactor check, the claim tick timer, and
everything in the Line Unit but an early NOTICE request and a backoff that starts. -/
structure FollowedCore (a b : Device) : Prop where
  clock : b.clock = a.clock
  pins : b.pins = a.pins
  sc : b.sc = { a.sc with phase := b.sc.phase, heat := b.sc.heat, lamp := b.sc.lamp, fault := b.sc.fault }
  plug : b.clc.plug = a.clc.plug ∧ b.clc.plugFilter = a.clc.plugFilter
  probe : b.hp.toInUse = a.hp.toInUse ∧ b.hp.probeLast = a.hp.probeLast
  hcu : b.hcu =
    { a.hcu with
      stage := b.hcu.stage, grant := b.hcu.grant, target := b.hcu.target, raise := b.hcu.raise,
      window := b.hcu.window, settling := b.hcu.settling, faultLockout := b.hcu.faultLockout,
      monitor := b.hcu.monitor, monitorTimer := b.hcu.monitorTimer, pull := b.hcu.pull,
      pullTimer := b.hcu.pullTimer, energy := b.hcu.energy, sat := b.hcu.sat }
  /-- a following-up raises no stage, no grant and no pending raise -/
  lower : b.hcu.stage ≤ a.hcu.stage ∧ (b.hcu.grant = a.hcu.grant ∨ b.hcu.grant = 0)
    ∧ (b.hcu.raise = a.hcu.raise ∨ b.hcu.raise = none)
  /-- a pending raise of one step stays one of one step -/
  step : (∀ r, a.hcu.raise = some r → r ≤ a.hcu.stage + 1) → ∀ r, b.hcu.raise = some r → r ≤ b.hcu.stage + 1
  plan : b.cu.plan = a.cu.plan ∧ b.cu.holdLanes = a.cu.holdLanes
  lu : b.lu = { a.lu with unbegun := b.lu.unbegun, backoff := b.lu.backoff }
  unbegun : a.lu.unbegun = true → b.lu.unbegun = true
  backoff : a.lu.backoff.isSome = true → b.lu.backoff = a.lu.backoff

/-- What a following-up keeps of the coach while no coupling begins: the identity, the link state and the STATUS held,
an exchange in flight, the records of the Fault Table with its flags, count, endings and age timer, the channels'
numbers, statuses and last values with the retest, age and signal timers, the HP's values but a claim forced to 0, and
the energy counter. VACANT and DEPARTING are left by coupling alone. -/
structure Stays (a b : Device) : Prop where
  identity : b.identity = a.identity
  clc : b.clc =
    { a.clc with
      exchange := b.clc.exchange, pendingId := b.clc.pendingId, pendingPoll := b.clc.pendingPoll,
      pendingRead := b.clc.pendingRead }
  exchange : a.clc.exchange.isSome = true →
    b.clc.exchange = a.clc.exchange ∧ b.clc.pendingId = a.clc.pendingId ∧ b.clc.pendingPoll = a.clc.pendingPoll
  records : b.ftu.table.map FaultEntry.record = a.ftu.table.map FaultEntry.record
  ftu : b.ftu.blockingDropped = a.ftu.blockingDropped ∧ b.ftu.overflow = a.ftu.overflow
    ∧ b.ftu.lastEnding = a.ftu.lastEnding ∧ b.ftu.lastComplete = a.ftu.lastComplete ∧ b.ftu.ageTimer = a.ftu.ageTimer
  /-- a sequence that runs goes on as it stands -/
  reading : a.ftu.read.isSome = true →
    b.ftu.read = a.ftu.read ∧ b.ftu.toggle = a.ftu.toggle ∧ b.ftu.busyCount = a.ftu.busyCount
      ∧ b.ftu.busyWait = a.ftu.busyWait ∧ b.ftu.table = a.ftu.table
      ∧ b.ftu.droppedInSequence = a.ftu.droppedInSequence
  channels : b.ltu.channels.map (fun c => (c.num, c.status, c.lastV, c.lastI, c.masked))
    = a.ltu.channels.map (fun c => (c.num, c.status, c.lastV, c.lastI, c.masked))
  timers : b.ltu.retestTimer = a.ltu.retestTimer ∧ b.ltu.ageTimer = a.ltu.ageTimer
    ∧ b.ltu.signalTimer = a.ltu.signalTimer
  hp : b.hp = { a.hp with q := b.hp.q } ∧ (b.hp.q = a.hp.q ∨ b.hp.q = 0)
  /-- a claim forced to 0 takes the grant with it -/
  claim : a.hcu.grant ≤ a.hp.q → b.hcu.grant ≤ b.hp.q
  energy : b.hcu.energy = a.hcu.energy ∧ b.hcu.sat = a.hcu.sat
  phase : (a.cu.phase = .vacant ∨ a.cu.phase = .departing) → b.cu.phase = a.cu.phase
  /-- a bay with an identified coach stays one -/
  coach : a.cu.phase.identified = true → b.cu.phase.identified = true

/-- What a following-up leaves when coupling begins in it (R27, R28, R137): the bay is in COUPLING, the coach is torn
down, and IDENTIFY is being sent. -/
structure Couples (b : Device) : Prop where
  phase : b.cu.phase = .coupling
  identity : b.identity = none
  exchange : b.clc.exchange = some ⟨.identify, 1, .sending, none⟩
  clc : b.clc = { Clc.reset b.clc.plugFilter with plug := b.clc.plug, exchange := b.clc.exchange }
  ftu : b.ftu = Ftu.reset
  channels : ∀ c ∈ b.ltu.channels, c.num ≤ 16 → c = Channel.off c.num
  hp : b.hp = { Hp.reset with toInUse := b.hp.toInUse, probeLast := b.hp.probeLast }
  stage : b.hcu.stage = 0 ∧ b.hcu.grant = 0 ∧ b.hcu.energy = 0 ∧ b.hcu.sat = false ∧ b.hcu.window = .none
  cu : b.cu.matchState = .none ∧ b.cu.intent = .none ∧ b.cu.presence = none

/-! What a following-up makes of each unit, whether coupling begins in it or not. -/

/-- The CU (R120, R127, R128, R131, R136, R138): where no phase rule applies, nothing of it changes but what is evaluated
and shown; a move clears the retry hold and the contest, which begins at CLEARING, and stops the presence timer. CLEARED
is entered here at exit spacing 0 alone, so that its spacing timer does not run. A new aspect starts in its lit half. -/
structure BayFollows (a b : Device) : Prop where
  stays : a.refresh.nextPhase = none →
    b.cu = { a.cu with
      matchState := b.cu.matchState, blocks := b.cu.blocks, aspect := b.cu.aspect, lit := b.cu.lit,
      flash := b.cu.flash }
  moves : a.refresh.nextPhase.isSome = true →
    b.cu.retryHold = false ∧ b.cu.intent = (if b.cu.phase = .clearing then .awaiting else .none)
      ∧ b.cu.intentTimer = none ∧ b.cu.key = none ∧ b.cu.presence = none
      ∧ b.cu.spacing = (if b.cu.phase = .cleared then none else a.cu.spacing)
  aspect : b.cu.aspect = b.aspectNow
    ∧ (a.cu.aspect = b.cu.aspect → b.cu.lit = a.cu.lit ∧ b.cu.flash = a.cu.flash)
    ∧ (a.cu.aspect ≠ b.cu.aspect →
        b.cu.lit = decide (b.cu.aspect.lamp ≠ .dark)
        ∧ b.cu.flash = if b.cu.aspect.flashing = true then some (a.clock + 500000) else none)

/-- A read sequence is asked for at the FTU when `a`'s event is over: it was, or the bay has left COUPLING (R42). -/
def Device.readAsked (a : Device) (phase : Phase) : Bool :=
  a.ftu.reread || (decide (a.cu.phase = .coupling) && decide (phase ≠ .coupling))

/-- A read sequence begins: asked for, none running, an identified coach, the link UP (R43). -/
def Device.readStarts (a : Device) (phase : Phase) : Bool :=
  a.readAsked phase && a.ftu.read.isNone && phase.identified && a.clc.linkUp

/-- FTU and CLC while no coupling begins: a read sequence begins where it can (R42, R43), and the arbiter then serves the
pending kinds (R32). -/
structure LinkFollows (a b : Device) : Prop where
  ftu : b.ftu =
    if a.readStarts b.cu.phase = true then
      { a.ftu with
        read := some ⟨0, 32, false⟩, busyCount := 0, busyWait := none, reread := false,
        table := a.ftu.table.map (fun e => { e with seen := false }), droppedInSequence := false,
        refreshTimer := some (a.clock + 120000000) }
    else { a.ftu with reread := a.readAsked b.cu.phase }
  clc : b.clc =
    Clc.serve { a.clc with
      pendingRead := if a.readStarts b.cu.phase = true then some (.openRead 0 32) else a.clc.pendingRead }

/-- The LTU as the phase rules leave it in the phase `phase`, before it looks at its passes: the coach-reported flags and
the channels that join (R58, R69), the leaving of PREPARING..CLEARED with its stop (R77), the full pass at the entry
(R72), the coach channels gone where coupling begins (R64). -/
def Device.lampsBefore (a : Device) (phase : Phase) : Ltu :=
  let left := a.cu.phase.prepared && !phase.prepared
  let requests := a.ltu.requests ++ (a.ltu.joining a.ftu).filter fun n => !a.ltu.requests.contains n
  { a.ltu with
    channels :=
      if a.coupleNow then
        ((a.ltu.channels.map (Channel.corroborated a.ftu)).map Channel.tornDown).map (Channel.corroborated Ftu.reset)
      else a.ltu.channels.map (Channel.corroborated a.ftu),
    pendingRetest := a.ltu.pendingRetest || !(a.ltu.joining a.ftu).isEmpty,
    pendingFull :=
      (a.ltu.pendingFull && !left)
        || ((decide (a.cu.phase = .coupling) || decide (a.cu.phase = .coupled)) && phase.prepared),
    requests := if left || a.coupleNow then requests.filter (fun n => decide (16 < n)) else requests,
    stop := a.ltu.stop || (left && a.ltu.stoppable),
    fullTimer := if left || a.coupleNow then none else a.ltu.fullTimer,
    ageTimer := if a.coupleNow then none else a.ltu.ageTimer }

/-- A stop is outstanding with no measurement in flight that began before now (R76, R78; log entry 20). -/
def Device.stopFalls (d : Device) : Bool :=
  d.ltu.stop && (d.ltu.measuring.isNone || d.ltu.measureTimer == some (d.clock + 40000))

/-- The pending kind that is served: the first in the order RETEST, SIGNAL, FULL that finds a channel set (R70). -/
def Device.kindServed (d : Device) : Option PassKind :=
  if d.ltu.pendingRetest = true ∧ d.passSet .retest ≠ [] then some .retest
  else if d.ltu.pendingSignal = true ∧ d.passSet .signal ≠ [] then some .signal
  else if d.ltu.pendingFull = true ∧ d.passSet .full ≠ [] then some .full
  else none

/-- The kind that is served asks the HCU for the window: it has a coach channel, and is not the first pending in a unit
that HELD the window, or waited for it already (R75, R76). -/
def Device.asksWindow (d : Device) : Bool :=
  match d.kindServed with
  | none => false
  | some kind =>
    hasCoach (d.passSet kind) && !(decide (d.ltu.window ≠ .none) && decide (d.ltu.firstPending = some kind))

/-- What the serving of the pending kinds makes of a unit `d` whose pass is over (R70 to R76). -/
structure PassesServed (d b : Device) : Prop where
  pass : b.ltu.pass = d.kindServed.map fun kind => ⟨kind, d.passSet kind, d.passSet kind⟩
  /-- a kind that is served, or finds no channel, is pending no more; those behind the served kind wait -/
  pending : b.ltu.pendingRetest = false
    ∧ b.ltu.pendingSignal = (d.ltu.pendingSignal && decide (d.kindServed = some .retest))
    ∧ b.ltu.pendingFull =
        (d.ltu.pendingFull && decide (d.kindServed = some .retest ∨ d.kindServed = some .signal))
  requests : b.ltu.requests = if d.ltu.pendingRetest = true then [] else d.ltu.requests
  /-- a full pass starts its timer again, and its channels begin with retries 0 (R72) -/
  full : b.ltu.fullTimer =
      (if d.ltu.pendingFull = true ∧ b.ltu.pendingFull = false then some (d.clock + 600000000) else d.ltu.fullTimer)
    ∧ b.ltu.channels =
        (if d.kindServed = some .full then d.ltu.channels.map (Channel.beginFull (d.passSet .full))
         else d.ltu.channels)
  rest : b.ltu.stop = d.ltu.stop ∧ b.ltu.retestTimer = d.ltu.retestTimer ∧ b.ltu.ageTimer = d.ltu.ageTimer
    ∧ b.ltu.signalTimer = d.ltu.signalTimer
  /-- a pass with an empty set ends now (R70) -/
  ended : b.ltu.endedAt = if d.kindServed = d.ltu.firstPending then d.ltu.endedAt else some d.clock
  /-- what the served pass met -/
  met : b.ltu.met =
    match d.kindServed with
    | none => d.ltu.met
    | some kind =>
      ⟨if kind ≠ .retest ∧ d.ltu.pendingRetest = true then [] else d.ltu.requests, d.ltu.channels, d.ltu.fullTimer⟩
  /-- a pass without coach channels, or none, leaves no window with the LTU; the window it had is released (R76) -/
  released : (∀ pass, b.ltu.pass = some pass → hasCoach pass.channels = false) →
    b.ltu.window = .none ∧ (d.ltu.window ≠ .none → b.hcu.window = .none)
      ∧ (d.ltu.window = .none → b.hcu.window = d.hcu.window)
      ∧ (∀ pass, b.ltu.pass = some pass →
          b.ltu.measuring = pass.remaining.head? ∧ b.ltu.measureTimer = some (d.clock + 40000))
      ∧ (b.ltu.pass = none → b.ltu.measuring = d.ltu.measuring ∧ b.ltu.measureTimer = d.ltu.measureTimer)
  /-- a pass with coach channels that is the first pending keeps a window that is HELD and measures at once, or waits on
  for one asked for at this moment; any other asks for the window, and measures where it is EFFECTIVE at once, or waits
  while it settles (R75, R76, R110) -/
  windowed : ∀ pass, b.ltu.pass = some pass → hasCoach pass.channels = true →
    if d.asksWindow = true then
      (b.ltu.window = .held ∧ b.hcu.window = .effective ∧ b.ltu.measuring = pass.remaining.head?
        ∧ b.ltu.measureTimer = some (d.clock + 40000))
      ∨ (b.ltu.window = .waiting ∧ b.hcu.window = .settling ∧ b.hcu.settling = some (d.clock + 100000)
        ∧ b.ltu.measuring = d.ltu.measuring ∧ b.ltu.measureTimer = d.ltu.measureTimer)
    else
      b.ltu.window = d.ltu.window ∧ b.hcu.window = d.hcu.window
      ∧ (d.ltu.window = .held →
          b.ltu.measuring = pass.remaining.head? ∧ b.ltu.measureTimer = some (d.clock + 40000))
      ∧ (d.ltu.window = .waiting →
          b.hcu.settling = d.hcu.settling ∧ b.ltu.measuring = d.ltu.measuring
            ∧ b.ltu.measureTimer = d.ltu.measureTimer)

/-- The station `b` with the LTU and the window of the HCU as they stand before the unit looks at its passes. -/
def Device.atPasses (a b : Device) : Device :=
  { b with
    ltu := a.lampsBefore b.cu.phase,
    hcu := { b.hcu with
      window := if a.coupleNow = true then .none else a.hcu.window,
      settling := if a.coupleNow = true then none else a.hcu.settling } }

/-- A unit whose pass ends uncompleted under a stop: no measurement, no stop request, and a window it waited for released
(R76, R78). -/
def Device.passStopped (d : Device) : Device :=
  { d with
    ltu := { d.ltu with
      pass := none, measuring := none, measureTimer := none, stop := false, endedAt := some d.clock,
      window := if d.ltu.window = .waiting then .none else d.ltu.window },
    hcu := { d.hcu with
      window := if d.ltu.window = .waiting then .none else d.hcu.window,
      settling := if d.ltu.window = .waiting ∧ d.hcu.window ≠ .none then none else d.hcu.settling } }

/-- The kind that the pass in flight gives way to, at the moment at which a pass ended and it began: the first pending of
its order or a higher one that finds a channel set. A full pass merges with a full pass (R70, R83; log entry 36). -/
def Device.kindBefore (d : Device) (pass : Pass) : Option PassKind :=
  if d.ltu.endedAt ≠ some d.clock then none
  else if d.ltu.pendingRetest = true ∧ (d.unbegin pass).passSet .retest ≠ [] then some .retest
  else if d.ltu.pendingSignal = true ∧ pass.kind ≠ .retest ∧ (d.unbegin pass).passSet .signal ≠ [] then
    some .signal
  else none

/-- The LTU: a pass in flight goes on as it stands unless a stop takes effect or it gives way, and the pending kinds are
served where none is in flight, the stop has ended it, or it has given way (R70, R76, R78). At the moment at which a pass
ended, a kind that finds no channel, or that the pass in flight has taken with it, is pending no more. -/
structure LampsFollow (a b : Device) : Prop where
  goesOn : ∀ pass, (a.atPasses b).ltu.pass = some pass → (a.atPasses b).stopFalls = false →
    (a.atPasses b).kindBefore pass = none →
    b.hcu.window = (a.atPasses b).hcu.window ∧ b.hcu.settling = (a.atPasses b).hcu.settling
    ∧ b.ltu =
        if (a.atPasses b).ltu.endedAt = some b.clock then
          { (a.atPasses b).ltu with
            requests := if (a.atPasses b).ltu.pendingRetest = true then [] else (a.atPasses b).ltu.requests,
            pendingRetest := false,
            pendingSignal := (a.atPasses b).ltu.pendingSignal && decide (pass.kind = .retest),
            pendingFull := (a.atPasses b).ltu.pendingFull && decide (pass.kind ≠ .full),
            fullTimer :=
              if (a.atPasses b).ltu.pendingFull = true ∧ pass.kind = .full then some (b.clock + 600000000)
              else (a.atPasses b).ltu.fullTimer }
        else (a.atPasses b).ltu
  givesWay : ∀ pass, (a.atPasses b).ltu.pass = some pass → (a.atPasses b).stopFalls = false →
    ((a.atPasses b).kindBefore pass).isSome = true → PassesServed ((a.atPasses b).unbegin pass) b
  stopped : (a.atPasses b).ltu.pass.isSome = true → (a.atPasses b).stopFalls = true →
    PassesServed (a.atPasses b).passStopped b
  idle : (a.atPasses b).ltu.pass = none → PassesServed (a.atPasses b) b

/-- The unit asks the HCU for the window in this following-up (R75, R110). -/
def Device.windowAsked (a b : Device) : Bool :=
  match (a.atPasses b).ltu.pass with
  | none => (a.atPasses b).asksWindow
  | some pass =>
    if (a.atPasses b).stopFalls then (a.atPasses b).passStopped.asksWindow
    else ((a.atPasses b).kindBefore pass).isSome && ((a.atPasses b).unbegin pass).asksWindow

/-- The HCU: the grant goes with the claim (R93, R104); the target is worked out again where the window is asked for, and
elsewhere lowered to what grant and caps allow, the window cap of a window released in this event included, and stage and
pending raise with it (R102, R104); a pull ends with the draw, and the monitor takes the state of Table 41 with its timer
(R112, R113). -/
structure HeaterFollows (a b : Device) : Prop where
  grant : b.hcu.grant = if b.claimForced = true then 0 else a.hcu.grant
  target : b.hcu.target =
    if a.windowAsked b = true then b.targetStage
    else min a.hcu.target
      (if a.hcu.window ≠ .none ∧ b.hcu.window = .none then min b.targetStage b.windowStage else b.targetStage)
  stage : b.hcu.stage = min (min a.hcu.stage a.hcu.target) b.hcu.target
  raise : ∀ r, b.hcu.raise = some r ↔ a.hcu.raise = some r ∧ r ≤ a.hcu.target ∧ r ≤ b.hcu.target
  pull : (a.hcu.pull = .none ∨ b.monitorFull ≤ 20 * b.pins.power →
      b.hcu.pull = a.hcu.pull ∧ b.hcu.pullTimer = a.hcu.pullTimer)
    ∧ (a.hcu.pull ≠ .none → 20 * b.pins.power < b.monitorFull → b.hcu.pull = .none ∧ b.hcu.pullTimer = none)
  monitor : b.hcu.monitor = b.monitorWanted
    ∧ b.hcu.monitorTimer =
        if b.hcu.monitor = a.hcu.monitor then a.hcu.monitorTimer
        else match b.hcu.monitor with
          | .watching => none
          | .overTiming => some (a.clock + 1000000)
          | .stuckTiming => some (a.clock + 2000000)

/-- The access to the line: with a frame ready, the line quiet and no backoff running, the backoff starts (R144). -/
def BackoffFollows (a b : Device) : Prop :=
  b.lu.backoff =
    if b.readyToSend = true ∧ a.lu.quiet = true ∧ a.lu.backoff = none then some (a.clock + b.slot * 64)
    else a.lu.backoff

/-- `b` is what the following-up of an event that left `a` has made of it. -/
def Followed (a b : Device) : Prop :=
  FollowedCore a b ∧ BayFollows a b ∧ HeaterFollows a b ∧ LampsFollow a b ∧ BackoffFollows a b
    ∧ (if a.coupleNow = true then Couples b else Stays a b ∧ LinkFollows a b)

/-- The command answers a next state whose device is `after`, the queue kept. -/
def Makes (c : Instr) (s : State) (after : Device) : Prop := exec c s = .next { s with dev := after }

/-- The command answers a next state: the command's own effect leaves the device `after`, and the next state is what the
following-up of that event makes of it. The queue is kept. -/
def Completes (c : Instr) (s : State) (after : Device) : Prop :=
  ∃ t, exec c s = .next t ∧ t.pending = s.pending ∧ Followed after t.dev

/-- The command completes so, and `claim` holds of the device that the next state has. -/
def CompletesWith (c : Instr) (s : State) (after : Device) (claim : Device → Prop) : Prop :=
  ∃ t, exec c s = .next t ∧ t.pending = s.pending ∧ Followed after t.dev ∧ claim t.dev

/-- What the command leaves of the reply in progress (R165, R167): its event has freed a place of the transmit queue and
left the device `freed`, and the reply offers its next frame, built as things stand there. -/
def ReplyGoesOn (c : Instr) (s : State) (freed : Device) : Prop :=
  (freed.lu.reply = none → Completes c s freed)
  ∧ ∀ (r : Reply) (total count : Nat), freed.lu.reply = some r → total = freed.subjectTotal r.subject →
    count = min r.subject.limit (total - r.next) → freed.sc.mode.speaks = true → freed.lu.flight = none →
    -- no place for it yet
    (2 ≤ freed.lu.lists.length → Completes c s freed)
    -- its entries have gone
    ∧ (freed.lu.lists.length < 2 → r.offered ≠ 0 → total ≤ r.next →
        Completes c s { freed with lu := { freed.lu with reply := none } })
    -- its first frame carries no entries
    ∧ (freed.lu.lists.length < 2 → r.offered = 0 → total ≤ r.next →
        Completes c s
          { freed with lu := { freed.lu with lists := freed.lu.lists ++ [freed.buildList r], reply := none } })
    -- one place, and entries to carry
    ∧ (freed.lu.lists.length = 1 → r.next < total →
        Completes c s
          { freed with
            lu := { freed.lu with
              lists := freed.lu.lists ++ [freed.buildList r],
              reply := some { r with next := r.next + count, offered := r.offered + 1 } } })
    -- two places, and entries for one frame
    ∧ (freed.lu.lists = [] → r.next < total → total ≤ r.next + count →
        Completes c s { freed with lu := { freed.lu with lists := [freed.buildList r], reply := none } })
    -- two places, and entries for more
    ∧ (freed.lu.lists = [] → r.next + count < total →
        Completes c s
          { freed with
            lu := { freed.lu with
              lists :=
                [freed.buildList r, freed.buildList { r with next := r.next + count, offered := r.offered + 1 }],
              reply :=
                some { r with
                  next := r.next + count + min r.subject.limit (total - (r.next + count)),
                  offered := r.offered + 2 } } })

/-! ### Section content (R13, Table 13) -/

/-- No PHASE content differs, as Table 13 lists it; the countdown of M at the minute tick is no change. -/
def Device.phaseSame (c : Instr) (a b : Device) : Prop :=
  b.cu.phase = a.cu.phase ∧ b.cu.blocks = a.cu.blocks ∧ b.cu.matchState = a.cu.matchState
  ∧ (if c = .minuteTick then
        b.cu.plan.map (fun p => { p with minutes := 0 }) = a.cu.plan.map (fun p => { p with minutes := 0 })
      else b.cu.plan = a.cu.plan)
  ∧ b.sc.mode = a.sc.mode ∧ b.sc.alarms = a.sc.alarms ∧ b.cu.holdLanes = a.cu.holdLanes

/-- No HEAT content differs: Q, G, s and the seven heat flags, and no first claim tick at which the HP runs (`firstRun`,
log entry 28). -/
def Device.heatSame (a b : Device) : Prop :=
  b.hp.q = a.hp.q ∧ b.hcu.grant = a.hcu.grant ∧ b.hcu.stage = a.hcu.stage ∧ b.heatFlags = a.heatFlags
  ∧ ¬ (a.hp.firstRun = true ∧ b.hp.firstRun = false)

/-- No LAMP content differs: status and the four flags of every channel. -/
def Device.lampSame (a b : Device) : Prop :=
  b.ltu.channels.map (fun x => (x.num, x.status, x.masked, x.coachReported, x.confirmed, x.isFinal))
    = a.ltu.channels.map (fun x => (x.num, x.status, x.masked, x.coachReported, x.confirmed, x.isFinal))

/-- No FAULT content differs: the entries with class, severity, state and blocking value, the blocking-dropped flag and
the overflow counter. -/
def Device.faultSame (a b : Device) : Prop :=
  b.ftu.table.map (fun e => (e.record.module, e.record.code, e.record.cls, e.record.severity, e.record.active,
      e.record.blocking b.conf.restrictive))
    = a.ftu.table.map (fun e => (e.record.module, e.record.code, e.record.cls, e.record.severity, e.record.active,
      e.record.blocking a.conf.restrictive))
  ∧ b.ftu.blockingDropped = a.ftu.blockingDropped ∧ b.ftu.overflow = a.ftu.overflow

/-- No window is released and asked for again between `a` and `b`: there is none, none settling either, or the pass in
flight goes on with its measurement. -/
def Device.windowKept (a b : Device) : Prop :=
  (a.hcu.window = .none → a.hcu.settling = none)
  ∧ ((a.hcu.window = .none ∧ b.hcu.window = .none)
    ∨ (b.ltu.pass = a.ltu.pass ∧ b.ltu.measuring = a.ltu.measuring ∧ b.ltu.measureTimer = a.ltu.measureTimer
      ∧ a.ltu.stop = false))

/-! ### Invariants -/

/-- The stage and a pending raise stand within the target that the grant and the caps in force allow (R102, R104): so
the stage is 0 while the shed sense is ASSERTED, a lockout is set or the mode is other than RUN and ISOLATED. -/
def Device.stageCapped (d : Device) : Prop :=
  d.hcu.stage ≤ d.targetStage ∧ ∀ s, d.hcu.raise = some s → s ≤ d.targetStage

/-- The claim of the NOTICE in flight, if one is in flight. -/
def Lu.claimInFlight (lu : Lu) : Option Nat :=
  match lu.flight with
  | some ⟨.notice snap, _, _⟩ => some snap.q
  | _ => none

/-- The exchange in flight is one of identification. -/
def Clc.identifying (clc : Clc) : Bool :=
  match clc.exchange with
  | none => false
  | some x => x.request == .identify || x.request == .getProfile

/-- Identification is under way in COUPLING alone, no identity is held there, and it stands at one place at a time: with
its exchange in flight it is not pending, and neither of the two goes with a running retry timer (R1, R28, R29). -/
def Device.identifiesInCoupling (d : Device) : Prop :=
  ((d.clc.pendingId = true ∨ d.clc.heldIdentity.isSome = true ∨ d.clc.retryTimer.isSome = true
      ∨ d.clc.identifying = true) → d.cu.phase = .coupling)
  ∧ (d.cu.phase = .coupling → d.identity = none)
  ∧ (d.clc.identifying = true → d.clc.pendingId = false)
  ∧ ((d.clc.identifying = true ∨ d.clc.pendingId = true) → d.clc.retryTimer = none)

/-- The stage is covered by the claim last announced and by the claim of a NOTICE in flight, and the grant never exceeds
the claim (R101, R106). -/
def Device.stageAnnounced (d : Device) : Prop :=
  d.hcu.grant ≤ d.hp.q
  ∧ (∀ id, d.identity = some id → id.rating * d.hcu.stage ≤ d.hcu.announced * id.stages)
  ∧ ∀ id q, d.identity = some id → d.lu.claimInFlight = some q → id.rating * d.hcu.stage ≤ q * id.stages

/-- The match state, LOCKOUT-FAULT and the block set are what the state gives (R6, R57, R120). -/
def Device.evaluated (d : Device) : Prop :=
  d.cu.matchState = d.evalMatch ∧ d.hcu.faultLockout = d.ftu.heatLockout ∧ d.cu.blocks = d.evalBlocks

/-- The Peer Table is in station number order with one entry a number, each 1..63, none the own number, and empty until
the station has left START (R151, R152). -/
def Device.peersOk (d : Device) : Prop :=
  d.lu.peers.Pairwise (fun e f => e.station < f.station)
  ∧ (∀ e ∈ d.lu.peers, 1 ≤ e.station ∧ e.station ≤ 63 ∧ e.station ≠ d.conf.station)
  ∧ (d.sc.mode = .start → d.lu.peers = [])

/-- The Lamp Table holds channels 1..19 in their order, and no count passes 6 (R62, R67). -/
def Ltu.tableOk (ltu : Ltu) : Prop :=
  ltu.channels.map Channel.num = (List.range 19).map (· + 1) ∧ ∀ c ∈ ltu.channels, c.retries ≤ 6

/-- The Fault Table holds at most 32 entries, at most one for each pair of module and code (R53). -/
def Ftu.tableOk (ftu : Ftu) : Prop :=
  ftu.table.length ≤ 32
  ∧ ftu.table.Pairwise (fun e f => e.record.sameFault f.record = false)

/-- The counters stand within their ranges (R55, R116, R153). -/
def Device.countersOk (d : Device) : Prop :=
  d.ftu.overflow ≤ 255 ∧ d.hcu.energy ≤ 4294967295
  ∧ d.lu.stats.format ≤ 65535 ∧ d.lu.stats.gap ≤ 65535 ∧ d.lu.stats.collisions ≤ 65535
  ∧ d.lu.stats.dropped ≤ 65535 ∧ d.lu.stats.unauthorised ≤ 65535

/-- The transmit queue holds at most two LIST frames, and a frame in flight fewer than 6 failed attempts (R146,
R147). -/
def Lu.queueOk (lu : Lu) : Prop :=
  lu.listsHeld ≤ 2 ∧ ∀ f, lu.flight = some f → f.failed < 6

/-- A contest goes on in CLEARING alone, with a key exactly in its intent window (R128, R129, R131). -/
def Cu.contestOk (cu : Cu) : Prop :=
  (cu.intent ≠ .none → cu.phase = .clearing) ∧ (cu.intent = .window ↔ cu.key.isSome = true)
  ∧ (cu.intent ≠ .window → cu.intentTimer = none)

/-- In START and HALT no tick and no mode timer runs, nothing is sent or pulled by the HCU, the bay is VACANT and the
stage is 0; in HALT the shed self test is over as well (R154, R158). -/
def Device.silentModes (d : Device) : Prop :=
  (d.sc.mode = .start ∨ d.sc.mode = .halt →
    d.sc.listenTimer = none ∧ d.sc.silence = none ∧ d.sc.conflictTimer = none ∧ d.sc.minuteTimer = none
      ∧ d.sc.rejoin = none ∧ d.hcu.claimTimer = none ∧ d.cu.phase = .vacant ∧ d.hcu.stage = 0 ∧ d.hcu.pull = .none
      ∧ d.hcu.monitor = .watching ∧ d.lu.sending = false)
  ∧ (d.sc.startStep ≠ .selfTest → d.sc.selfTest = none)
  ∧ (d.sc.mode = .halt → d.sc.startStep = .over)

/-- In CONFLICT the station sends nothing and has nothing to send, and no rejoin period runs (R150, R162, R166). -/
def Device.conflictSilent (d : Device) : Prop :=
  d.sc.mode = .conflict →
    d.lu.sending = false ∧ d.lu.flight = none ∧ d.lu.unbegun = false ∧ d.lu.lists = [] ∧ d.lu.reply = none
      ∧ d.lu.backoff = none ∧ d.sc.rejoin = none ∧ d.sc.listenTimer = none ∧ d.hcu.rejoinCap = none

/-- No phase rule is left to apply: coupling does not wait (R27), no exit of COUPLING or COUPLED waits (R125), a bay in
PREPARING has a preparation block and one in READY none, READY is not eligible to clear (R126), and in CLEARING and
CLEARED no revoking block stands and M is within the release lead (R131, R132). -/
def Device.phaseSettled (d : Device) : Prop :=
  match d.cu.phase with
  | .vacant | .departing => ¬ (d.clc.plug = true ∧ d.sc.mode.heats = true)
  | .coupling => d.identity = none
  | .coupled => d.cu.matchState ≠ .matched
  | .preparing => d.cu.blocks.preparation = true ∧ d.cu.blocks.noPlan = false
  | .ready =>
    d.cu.blocks.preparation = false
      ∧ ¬ (d.cu.blocks.departurePath = false ∧ d.cu.spacing = none ∧ d.cu.retryHold = false
        ∧ ∃ plan, d.cu.plan = some plan ∧ plan.minutes ≤ d.conf.releaseLead)
  | .clearing | .cleared =>
    d.cu.blocks.revoking = false ∧ ∀ plan, d.cu.plan = some plan → plan.minutes ≤ d.conf.releaseLead

/-- The current monitor stands where stage, draw, pull and contactor check put it (Table 41). -/
def Device.monitorOk (d : Device) : Prop :=
  (d.hcu.monitor = .overTiming ↔
    d.conf.currentFitted = true ∧ d.sc.mode.hears = true ∧ 0 < d.hcu.stage
      ∧ 11 * d.stagePower < 10 * d.pins.power)
  ∧ (d.hcu.monitor = .stuckTiming ↔
    d.conf.currentFitted = true ∧ d.sc.mode.hears = true ∧ d.hcu.stage = 0 ∧ d.hcu.pull = .none
      ∧ d.hcu.armed = true ∧ d.monitorFull < 20 * d.pins.power)

/-- The aspect of the bay signal by mode, plug, phase and PULLOUT (R138, Table 47). -/
def Device.aspectOk (d : Device) : Prop :=
  (d.sc.mode = .start → d.cu.aspect = ⟨.dark, false⟩)
  ∧ (d.sc.mode = .halt ∨ d.sc.mode = .conflict → d.cu.aspect = ⟨.red, true⟩)
  ∧ (d.sc.mode = .listen → d.cu.aspect = if d.clc.plug = true then ⟨.red, false⟩ else ⟨.dark, false⟩)
  ∧ (d.sc.mode = .run ∨ d.sc.mode = .isolated →
    (d.cu.phase = .vacant →
      d.cu.aspect = if d.sc.alarms.pullout = true then ⟨.red, true⟩ else ⟨.dark, false⟩)
    ∧ (d.cu.phase = .coupling ∨ d.cu.phase = .coupled ∨ d.cu.phase = .preparing → d.cu.aspect = ⟨.red, false⟩)
    ∧ (d.cu.phase = .ready ∨ d.cu.phase = .clearing → d.cu.aspect = ⟨.amber, false⟩)
    ∧ (d.cu.phase = .cleared → d.cu.aspect = ⟨.green, false⟩)
    ∧ (d.cu.phase = .departing → d.cu.aspect = ⟨.green, true⟩))

/-- Every latch set in `a` is set in `b`. -/
def Alarms.within (a b : Alarms) : Prop :=
  (a.pullout = true → b.pullout = true) ∧ (a.overcurrent = true → b.overcurrent = true)
  ∧ (a.contactorFail = true → b.contactorFail = true) ∧ (a.linkLost = true → b.linkLost = true)
  ∧ (a.signalRedFail = true → b.signalRedFail = true) ∧ (a.numberConflict = true → b.numberConflict = true)
  ∧ (a.shedLineFault = true → b.shedLineFault = true) ∧ (a.probeFault = true → b.probeFault = true)

/-! ### Frames of other nodes -/

/-- A valid frame of another node, with another number, ends: the station is assembling it, and FROM and TO lie in their
ranges (R141 to R143). -/
def Device.hearsFrom (d : Device) (sender dest : Byte) : Prop :=
  d.sc.mode.hears = true ∧ d.lu.receiver = .assembling ∧ d.lu.sending = false
  ∧ 1 ≤ sender.toNat ∧ sender.toNat ≤ 63 ∧ dest.toNat ≤ 63 ∧ sender.toNat ≠ d.conf.station

/-- What every valid frame of another node leaves, whatever it carries: the receiver idle with 15 bit times of quiet to
count, the silence timer restarted (R143, R160), and in ISOLATED outside a rejoin period the beginning of one with its
cap (R115, R161). -/
def Device.heard (d : Device) : Device :=
  { d with
    sc := { d.sc with
      silence := some (d.clock + 10000000),
      rejoin := if d.sc.mode = .isolated ∧ d.sc.rejoin = none then some 2 else d.sc.rejoin },
    hcu := { d.hcu with
      rejoinCap := if d.sc.mode = .isolated ∧ d.sc.rejoin = none then some d.hcu.stage else d.hcu.rejoinCap },
    lu := { d.lu with receiver := .idle, quiet := false, quietTimer := some (d.clock + 240) } }

/-- A dispatch frame to the own number from a dispatch number in use (R143, R164). -/
def Device.obeys (d : Device) (sender dest : Byte) : Prop :=
  d.hearsFrom sender dest ∧ dest.toNat = d.conf.station ∧ 1 ≤ dest.toNat
  ∧ (sender.toNat = d.conf.dispatch1 ∨ sender.toNat = d.conf.dispatch2)

/-- A QUERY to the own number from a dispatch number in use ends while the station can receive it, which it can at the
moment a LIST of its own leaves the queue or a number conflict is reported too (R143, R164, R168; log entry 35). -/
def Device.obeysQuery (d : Device) (sender dest : Byte) : Prop :=
  (d.receives = true ∨ d.queryBesideEvent = true)
  ∧ 1 ≤ sender.toNat ∧ sender.toNat ≤ 63 ∧ dest.toNat ≤ 63 ∧ sender.toNat ≠ d.conf.station
  ∧ dest.toNat = d.conf.station ∧ 1 ≤ dest.toNat
  ∧ (sender.toNat = d.conf.dispatch1 ∨ sender.toNat = d.conf.dispatch2)

/-- FROM and TO of a PLAN, HOLD, ACKNOWLEDGE or QUERY whose LEN is the one of its kind (Table 51). -/
def dispatchAddresses : Instr → Option (Byte × Byte)
  | .plan sender dest payload => if payload.length = 8 then some (sender, dest) else none
  | .planCancel sender dest payload => if payload.length = 8 then some (sender, dest) else none
  | .hold sender dest payload => if payload.length = 2 then some (sender, dest) else none
  | .acknowledge sender dest payload => if payload.length = 1 then some (sender, dest) else none
  | .queryLamps sender dest _ => some (sender, dest)
  | .queryFaults sender dest _ => some (sender, dest)
  | .queryHeat sender dest _ => some (sender, dest)
  | .queryLine sender dest _ => some (sender, dest)
  | .queryUnknownSubject sender dest _ _ => some (sender, dest)
  | _ => none

/-- FROM and TO of any frame of the Depot Line whose LEN is the one of its kind. -/
def frameAddresses : Instr → Option (Byte × Byte)
  | .noticeReceived sender dest payload => if payload.length = 16 then some (sender, dest) else none
  | .listReceived sender dest => some (sender, dest)
  | c => dispatchAddresses c

end Sys2Proof.Machine
end

