-- ==== Sys2Proof/Certificates/Slice0/Obligations.lean ====
section
/-! DEFINITION. The statements about the station. `Makes c s after` says that exec of `c` at `s` answers a next state
with device `after`; `Completes c s after` that it answers a next state which the following-up of the event has made of
`after` (Safety.lean says what that leaves alone). -/

open Sys2Proof Sys2Proof.Machine

/-! ### The machine -/

/-- The command at the front of the queue is run by exec on the state with the queue's rest. -/
def Obligations.StepRunsFrontCommand : Prop :=
  ∀ (c : Instr) (rest : List Instr) (s : State), s.pending = c :: rest → step s = exec c (s.withPending rest)

/-- No command stops the station, and none touches the queue: the manual describes no such event. On an empty queue
one microsecond of the station clock passes and nothing else (the model's choice, log entry 2). -/
def Obligations.EveryStepAnswersNext : Prop :=
  (∀ (c : Instr) (s : State), ∃ t, exec c s = .next t ∧ t.pending = s.pending)
  ∧ ∀ s : State, s.pending = [] → step s = .next { s with dev := { s.dev with clock := s.dev.clock + 1 } }

/-- The values the tables of the manual give after power-on and RESET (Tables 15, 16, 21, 28, 29, 39, 45, 50, 54, 59;
R95). Clock, input levels and the step of START are the model's (log entries 2 to 4) and not stated. -/
def Obligations.ResetLeavesTheStatedValues : Prop :=
  State.reset.dev.sc.mode = .start ∧ State.reset.dev.sc.config = none
  ∧ State.reset.dev.sc.alarms = ⟨false, false, false, false, false, false, false, false⟩
  ∧ State.reset.dev.sc.phase = ⟨.off, false⟩ ∧ State.reset.dev.sc.heat = ⟨.off, false⟩
  ∧ State.reset.dev.sc.lamp = ⟨.off, false⟩ ∧ State.reset.dev.sc.fault = ⟨.off, false⟩
  ∧ State.reset.dev.sc.listenTimer = none ∧ State.reset.dev.sc.silence = none ∧ State.reset.dev.sc.rejoin = none
  ∧ State.reset.dev.sc.conflictTimer = none ∧ State.reset.dev.sc.minuteTimer = none
  ∧ State.reset.dev.identity = none
  ∧ State.reset.dev.clc.plug = false ∧ State.reset.dev.clc.linkUp = false ∧ State.reset.dev.clc.exchange = none
  ∧ State.reset.dev.clc.pendingId = false ∧ State.reset.dev.clc.pendingPoll = false
  ∧ State.reset.dev.clc.pendingRead = none ∧ State.reset.dev.clc.retryTimer = none
  ∧ State.reset.dev.clc.pollTimer = none ∧ State.reset.dev.clc.lastStatus = none
  ∧ State.reset.dev.clc.tcState = .none ∧ State.reset.dev.clc.changeCount = none
  ∧ State.reset.dev.ftu.table = [] ∧ State.reset.dev.ftu.read = none ∧ State.reset.dev.ftu.toggle = false
  ∧ State.reset.dev.ftu.busyCount = 0 ∧ State.reset.dev.ftu.reread = false
  ∧ State.reset.dev.ftu.refreshTimer = none ∧ State.reset.dev.ftu.blockingDropped = false
  ∧ State.reset.dev.ftu.droppedInSequence = false ∧ State.reset.dev.ftu.overflow = 0
  ∧ State.reset.dev.ftu.lastEnding = .none ∧ State.reset.dev.ftu.lastComplete = none
  ∧ State.reset.dev.ftu.ageTimer = none
  ∧ State.reset.dev.ltu.channels =
      (List.range 19).map (fun k => ⟨k + 1, .off, 0, 0, 0, false, false, false, false⟩)
  ∧ State.reset.dev.ltu.pendingRetest = false ∧ State.reset.dev.ltu.pendingSignal = false
  ∧ State.reset.dev.ltu.pendingFull = false ∧ State.reset.dev.ltu.requests = []
  ∧ State.reset.dev.ltu.pass = none ∧ State.reset.dev.ltu.measuring = none ∧ State.reset.dev.ltu.stop = false
  ∧ State.reset.dev.ltu.window = .none ∧ State.reset.dev.ltu.retestTimer = none
  ∧ State.reset.dev.ltu.fullTimer = none ∧ State.reset.dev.ltu.ageTimer = none
  ∧ State.reset.dev.ltu.signalTimer = none
  ∧ State.reset.dev.hp.q = 0 ∧ State.reset.dev.hp.slack = 1080 ∧ State.reset.dev.hp.deltaT = 0
  ∧ State.reset.dev.hp.ew = 0 ∧ State.reset.dev.hp.pm = 0 ∧ State.reset.dev.hp.pw = 0 ∧ State.reset.dev.hp.p = 0
  ∧ State.reset.dev.hp.tf = 0 ∧ State.reset.dev.hp.short = false ∧ State.reset.dev.hp.unreachable = false
  ∧ State.reset.dev.hp.stale = false ∧ State.reset.dev.hp.reached = false ∧ State.reset.dev.hp.toInUse = -60
  ∧ State.reset.dev.hp.probeLast = none
  ∧ State.reset.dev.hcu.stage = 0 ∧ State.reset.dev.hcu.grant = 0 ∧ State.reset.dev.hcu.target = 0
  ∧ State.reset.dev.hcu.raise = none ∧ State.reset.dev.hcu.announced = 0 ∧ State.reset.dev.hcu.window = .none
  ∧ State.reset.dev.hcu.asserted = false ∧ State.reset.dev.hcu.holdOff = none
  ∧ State.reset.dev.hcu.shedFlag = false ∧ State.reset.dev.hcu.rejoinCap = none
  ∧ State.reset.dev.hcu.faultLockout = false ∧ State.reset.dev.hcu.overLockout = false
  ∧ State.reset.dev.hcu.monitor = .watching ∧ State.reset.dev.hcu.pull = .none ∧ State.reset.dev.hcu.armed = true
  ∧ State.reset.dev.hcu.energy = 0 ∧ State.reset.dev.hcu.sat = false ∧ State.reset.dev.hcu.claimTimer = none
  ∧ State.reset.dev.cu.phase = .vacant ∧ State.reset.dev.cu.blocks.code = 0 ∧ State.reset.dev.cu.plan = none
  ∧ State.reset.dev.cu.matchState = .none ∧ State.reset.dev.cu.holdLanes = 0#16
  ∧ State.reset.dev.cu.spacing = none ∧ State.reset.dev.cu.intent = .none ∧ State.reset.dev.cu.key = none
  ∧ State.reset.dev.cu.retryHold = false ∧ State.reset.dev.cu.presence = none
  ∧ State.reset.dev.cu.aspect = ⟨.dark, false⟩
  ∧ State.reset.dev.lu.receiver = .idle ∧ State.reset.dev.lu.quiet = false ∧ State.reset.dev.lu.flight = none
  ∧ State.reset.dev.lu.unbegun = false ∧ State.reset.dev.lu.lists = [] ∧ State.reset.dev.lu.lastNotice = none
  ∧ State.reset.dev.lu.peers = [] ∧ State.reset.dev.lu.stats = ⟨0, 0, 0, 0, 0⟩ ∧ State.reset.dev.lu.reply = none

/-! ### Reset, start, modes (Chapter 9) -/

/-- POWER_ON with the RESET pin high and RESET_RELEASE leave every block at its reset value in START with the
configuration read begun and the two input filters counting from their pins; RESET_ASSERT, and POWER_ON with the pin
low, hold every block at its reset value: the stage pins carry code 0, no lamp is driven, the Shed Line is not pulled
and neither line is driven (R154). Where START stands is log entry 4; that POWER_ON stands for the moment at which the
supply becomes good is the model's choice, log entry 39. -/
def Obligations.ResetCommandsReturnEveryBlock : Prop :=
  (∀ s : State, s.dev.pins.reset = true →
    Makes .powerOn s (Device.resetBlocks s.dev.clock s.dev.pins .reading
      (if s.dev.pins.plug = true then some (s.dev.clock + 200000) else none)
      (if s.dev.pins.shedHigh = true then none else some (s.dev.clock + 50000))))
  ∧ (∀ s : State, s.dev.pins.reset = false →
    Makes .resetRelease s (Device.resetBlocks s.dev.clock { s.dev.pins with reset := true } .reading
      (if s.dev.pins.plug = true then some (s.dev.clock + 200000) else none)
      (if s.dev.pins.shedHigh = true then none else some (s.dev.clock + 50000))))
  ∧ (∀ s : State, s.dev.pins.reset = false →
    Makes .powerOn s (Device.resetBlocks s.dev.clock s.dev.pins .held none none))
  ∧ (∀ s : State,
    Makes .resetAssert s (Device.resetBlocks s.dev.clock { s.dev.pins with reset := false } .held none none))
  ∧ ∀ (clock : Nat) (pins : Pins) (lamp : Lamp),
    (Device.resetBlocks clock pins .held none none).stagePins = 0#3
    ∧ (Device.resetBlocks clock pins .held none none).lampDrive lamp = .off
    ∧ (Device.resetBlocks clock pins .held none none).pullsShed = false
    ∧ (∀ n, (Device.resetBlocks clock pins .held none none).drivesDepotLine n = false)
    ∧ (Device.resetBlocks clock pins .held none none).drivesCoachLink = false

/-- CONFIGURATION_READ in START: an image that passes the checks of R155 is clamped and held, the fitted signal
channels become INITIAL (R62) and the 20 ms pull of the shed self test begins (R157); a memory that does not answer or
an image that fails a check takes the mode to HALT with the signal RED flashing (R155, R158). An image of another
length fails the checks by log entry 7. -/
def Obligations.ConfigurationReadAcceptsOrHalts : Prop :=
  (∀ (s : State) (image : List Byte), s.dev.sc.mode = .start → s.dev.sc.startStep = .reading →
    image.length = 32 → crc8 (image.take 31) = image.getD 31 0#8 → byteAt image 0 ≠ 0 → byteAt image 1 ≠ 0 →
    Completes (.configurationRead (some image)) s
      { s.dev with
        sc := { s.dev.sc with
          config := some (readConfig image), startStep := .selfTest, selfTest := some (s.dev.clock + 20000) },
        ltu := { s.dev.ltu with
          channels := s.dev.ltu.channels.map fun c =>
            if (c.num = 17 ∧ bitAt image 13 0 = true) ∨ (c.num = 18 ∧ bitAt image 13 1 = true)
                ∨ (c.num = 19 ∧ bitAt image 13 2 = true)
            then { c with status := .initial } else c } })
  ∧ ∀ (s : State) (answer : Option (List Byte)), s.dev.sc.mode = .start → s.dev.sc.startStep = .reading →
    (∀ image, answer = some image →
      image.length ≠ 32 ∨ crc8 (image.take 31) ≠ image.getD 31 0#8 ∨ byteAt image 0 = 0 ∨ byteAt image 1 = 0) →
    ∃ t, exec (.configurationRead answer) s = .next t ∧ t.pending = s.pending
      ∧ Followed { s.dev with sc := { s.dev.sc with mode := .halt, startStep := .over } } t.dev
      ∧ t.dev.cu.aspect = ⟨.red, true⟩

/-- Each configuration item is taken to the nearest value of its range, with the three erased defaults (Table 56). Each
field of the coach identity and each LED count is taken so too, a category but ADVISORY as MANDATORY, and the
profile-clamped note is set exactly when something of the two replies was not taken as received (R1, R2, Table 8). Each
record of a RECORDS frame is clamped (R52). -/
def Obligations.ItemsAndFieldsAreClamped : Prop :=
  (∀ image : List Byte,
    (readConfig image).station = min 63 (byteAt image 0) ∧ (readConfig image).lane = min 16 (byteAt image 1)
    ∧ (readConfig image).position = max 1 (min 4 (byteAt image 2))
    ∧ (readConfig image).dispatch1 = min 63 (byteAt image 3) ∧ (readConfig image).dispatch2 = min 63 (byteAt image 4)
    ∧ (readConfig image).budget = min 4000 (wordAt image 5)
    ∧ (readConfig image).fairShare = min (readConfig image).budget (wordAt image 7)
    ∧ (readConfig image).windowAllowance = (if byteAt image 9 = 255 then 8 else min 40 (byteAt image 9))
    ∧ (readConfig image).spacing = (if byteAt image 10 = 255 then 45 else min 120 (byteAt image 10))
    ∧ (readConfig image).releaseLead = (if byteAt image 11 = 255 then 5 else min 30 (byteAt image 11))
    ∧ (∀ k < 7, (readConfig image).restrictive.getLsbD k = bitAt image 12 k)
    ∧ (readConfig image).redFitted = bitAt image 13 0 ∧ (readConfig image).amberFitted = bitAt image 13 1
    ∧ (readConfig image).greenFitted = bitAt image 13 2
    ∧ (readConfig image).signalLeds = max 1 (min 8 (byteAt image 14))
    ∧ (readConfig image).signalVf = max 20 (min 36 (byteAt image 15))
    ∧ (readConfig image).presenceFitted = bitAt image 16 0 ∧ (readConfig image).currentFitted = bitAt image 16 1)
  ∧ (∀ idn profile : List Byte,
    let id := readIdentity idn profile
    id.number = max 1 (min 65535 (wordAt idn 0)) ∧ id.capacity = max 100 (min 2500 (wordAt idn 2))
    ∧ id.loss = max 20 (min 1000 (wordAt idn 4)) ∧ id.rating = max 4 (min 160 (byteAt idn 6))
    ∧ id.stages = max 1 (min 7 (byteAt idn 7)) ∧ id.vf = max 20 (min 36 (byteAt idn 8))
    ∧ id.profile.length = 16
    ∧ (∀ num, 1 ≤ num → num ≤ 16 →
        (id.entry num).fitted = bitAt profile (num - 1) 0
        ∧ ((id.entry num).mandatory = false ↔ bitsAt profile (num - 1) 1 2 = 1)
        ∧ (id.entry num).leds = max 1 (min 8 (bitsAt profile (num - 1) 4 4)))
    ∧ (id.clamped = true ↔
        id.number ≠ wordAt idn 0 ∨ id.capacity ≠ wordAt idn 2 ∨ id.loss ≠ wordAt idn 4 ∨ id.rating ≠ byteAt idn 6
        ∨ id.stages ≠ byteAt idn 7 ∨ id.vf ≠ byteAt idn 8
        ∨ ∃ num, 1 ≤ num ∧ num ≤ 16
            ∧ (1 < bitsAt profile (num - 1) 1 2 ∨ (id.entry num).leds ≠ bitsAt profile (num - 1) 4 4)))
  ∧ (∀ (payload : List Byte) (i : Nat),
    let r := recordAt payload i
    r.module = min 63 (byteAt payload i)
    ∧ (byteAt payload (i + 1) ≤ 5 → r.cls.code = byteAt payload (i + 1))
    ∧ (6 ≤ byteAt payload (i + 1) → r.cls = .other)
    ∧ r.code = wordAt payload (i + 2) ∧ r.severity = min 3 (byteAt payload (i + 4))
    ∧ (r.active = false ↔ byteAt payload (i + 5) = 0) ∧ r.occurrences = byteAt payload (i + 6)
    ∧ r.hint =
        (if r.cls = .lighting ∧ 1 ≤ byteAt payload (i + 7) ∧ byteAt payload (i + 7) ≤ 16 then
          some (byteAt payload (i + 7))
        else none))
  ∧ ∀ payload : List Byte,
    (payload.length = 1 → recordsOf payload = [])
    ∧ (payload.length = 9 → recordsOf payload = [recordAt payload 1])
    ∧ (payload.length = 17 → recordsOf payload = [recordAt payload 1, recordAt payload 9])

/-- Entry to LISTEN at the end of the shed self test and at the end of CONFLICT (R157, R159, R162): LISTEN, silence,
claim tick and signal pass timers start, PHASE is INITIAL with its mark clear, an early NOTICE is asked for, and a
sample that reads high latches SHED_LINE_FAULT. A signal pass falls due: it is pending or has begun over the fitted
signal channels, if any (R73). The minute tick timer starts where it does not run (R163). Clock and deadlines: log
entry 2. The sample is the operand (log entry 6). -/
def Obligations.EntryToListenStartsTheTimers : Prop :=
  (∀ (s : State) (t0 : Nat) (high : Bool), s.dev.sc.selfTest = some t0 →
    ∃ t, exec (.shedSelfTestEnd high) s = .next t ∧ t.pending = s.pending
      ∧ t.dev.clock = max s.dev.clock t0
      ∧ t.dev.sc.mode = .listen ∧ t.dev.sc.startStep = .over ∧ t.dev.sc.selfTest = none
      ∧ t.dev.sc.alarms = { s.dev.sc.alarms with shedLineFault := s.dev.sc.alarms.shedLineFault || high }
      ∧ t.dev.sc.listenTimer = some (max s.dev.clock t0 + 5000000)
      ∧ t.dev.sc.silence = some (max s.dev.clock t0 + 10000000)
      ∧ t.dev.hcu.claimTimer = some (max s.dev.clock t0 + 31000 * s.dev.conf.station)
      ∧ t.dev.ltu.signalTimer = some (max s.dev.clock t0 + 60000000)
      ∧ (t.dev.ltu.pendingSignal = true
        ∨ (∃ set, t.dev.ltu.pass = some ⟨.signal, set, set⟩
          ∧ set = (t.dev.ltu.channels.filter fun c => decide (16 < c.num ∧ c.status ≠ .off)).map Channel.num)
        ∨ ∀ c ∈ t.dev.ltu.channels, 16 < c.num → c.status = .off)
      ∧ (s.dev.sc.minuteTimer = none → t.dev.sc.minuteTimer = some (max s.dev.clock t0 + 60000000))
      ∧ t.dev.sc.phase = ⟨.initial, false⟩ ∧ t.dev.lu.unbegun = true
      ∧ t.dev.pins = s.dev.pins ∧ t.dev.sc.config = s.dev.sc.config ∧ t.dev.cu.plan = s.dev.cu.plan
      ∧ t.dev.lu.peers = s.dev.lu.peers ∧ t.dev.lu.stats = s.dev.lu.stats ∧ t.dev.lu.lists = s.dev.lu.lists)
  ∧ ∀ (s : State) (t0 : Nat), s.dev.sc.conflictTimer = some t0 →
    ∃ t, exec .conflictQuietExpiry s = .next t ∧ t.pending = s.pending
      ∧ t.dev.clock = max s.dev.clock t0
      ∧ t.dev.sc.mode = .listen ∧ t.dev.sc.conflictTimer = none ∧ t.dev.sc.alarms = s.dev.sc.alarms
      ∧ t.dev.sc.listenTimer = some (max s.dev.clock t0 + 5000000)
      ∧ t.dev.sc.silence = some (max s.dev.clock t0 + 10000000)
      ∧ t.dev.hcu.claimTimer = some (max s.dev.clock t0 + 31000 * s.dev.conf.station)
      ∧ t.dev.ltu.signalTimer = some (max s.dev.clock t0 + 60000000)
      ∧ (t.dev.ltu.pendingSignal = true
        ∨ (∃ set, t.dev.ltu.pass = some ⟨.signal, set, set⟩
          ∧ set = (t.dev.ltu.channels.filter fun c => decide (16 < c.num ∧ c.status ≠ .off)).map Channel.num)
        ∨ ∀ c ∈ t.dev.ltu.channels, 16 < c.num → c.status = .off)
      ∧ (∀ m, s.dev.sc.minuteTimer = some m → t.dev.sc.minuteTimer = some m)
      ∧ t.dev.sc.phase = ⟨.initial, false⟩ ∧ t.dev.lu.unbegun = true
      ∧ t.dev.pins = s.dev.pins ∧ t.dev.sc.config = s.dev.sc.config ∧ t.dev.cu.plan = s.dev.cu.plan
      ∧ t.dev.lu.peers = s.dev.lu.peers ∧ t.dev.lu.stats = s.dev.lu.stats ∧ t.dev.lu.lists = s.dev.lu.lists

/-- The changes of mode among LISTEN, RUN and ISOLATED: the LISTEN timer's expiry makes the mode RUN (R159), the
silence timer's makes RUN ISOLATED and has no effect in another mode (R160), and the second claim tick of a rejoin
period makes the mode RUN and drops the cap (R115, R161). MINUTE_TICK: the next tick falls 60 s after this one (R163),
M goes down by 1 and stays at 0, and LATE is set at M = 0 outside DEPARTING (R7). Clock and deadlines: log entry 2.
REJOIN_PERIOD_END is log entry 9, the deadline that a silence leaves is log entry 24. -/
def Obligations.ModeTimersAndMinuteTick : Prop :=
  (∀ (s : State) (t0 : Nat), s.dev.sc.listenTimer = some t0 →
    Completes .listenTimerExpiry s
      { s.dev with clock := max s.dev.clock t0, sc := { s.dev.sc with listenTimer := none, mode := .run } })
  ∧ (∀ (s : State) (t0 : Nat), s.dev.sc.silence = some t0 → s.dev.sc.mode = .run →
    Completes .silenceTimeout s
      { s.dev with clock := max s.dev.clock t0, sc := { s.dev.sc with mode := .isolated } })
  ∧ (∀ (s : State) (t0 : Nat), s.dev.sc.silence = some t0 → s.dev.sc.mode ≠ .run →
    Makes .silenceTimeout s { s.dev with clock := max s.dev.clock t0 })
  ∧ (∀ (s : State) (t0 : Nat), s.dev.sc.rejoin = some 1 → s.dev.hcu.claimTimer = some t0 →
    Completes .rejoinPeriodEnd s
      { s.dev with
        clock := max s.dev.clock t0, sc := { s.dev.sc with mode := .run, rejoin := none },
        hcu := { s.dev.hcu with rejoinCap := none } })
  ∧ ∀ (s : State) (t0 : Nat), s.dev.sc.minuteTimer = some t0 →
    Completes .minuteTick s
      { s.dev with
        clock := max s.dev.clock t0, sc := { s.dev.sc with minuteTimer := some (t0 + 60000000) },
        cu := { s.dev.cu with
          plan := s.dev.cu.plan.map fun plan =>
            { plan with
              minutes := plan.minutes - 1,
              late := plan.late || (decide (plan.minutes ≤ 1) && decide (s.dev.cu.phase ≠ .departing)) } } }

/-- CLAIM_TICK (R86, R98, R99, R101, R105, R106, R116, R18): the next tick falls 2 s after this one; the probe is
read, the demand worked out, HEAT reached evaluated (R96), the grant taken and the stage chosen; the energy of the
stage held is counted; Qa stays; the retry hold is clear; in LISTEN, RUN and ISOLATED a NOTICE is asked for. In a bay
whose blocks are evaluated and whose phase is settled, demand and grant stand so in the next state, and so do stage,
target and raise where no measurement window begins or ends, and the first tick at which the HP runs leaves HEAT DIRTY
(R13, R94). Clock and deadlines: log entry 2. The order inside the tick is log entry 8, the end of a rejoin period at it
log entry 9, the first run log entry 28. -/
def Obligations.ClaimTickDoesItsWork : Prop :=
  (∀ (s : State) (t0 : Nat) (probe : Int), s.dev.hcu.claimTimer = some t0 →
    ∃ t, exec (.claimTick probe) s = .next t ∧ t.pending = s.pending
      ∧ t.dev.clock = max s.dev.clock t0 ∧ t.dev.hcu.claimTimer = some (t0 + 2000000)
      ∧ (-90 ≤ probe ∧ probe ≤ 110 →
          t.dev.hp.toInUse = max (-80) (min 100 probe) ∧ t.dev.hp.probeLast = some (max (-80) (min 100 probe))
            ∧ t.dev.sc.alarms = s.dev.sc.alarms)
      ∧ (probe < -90 ∨ 110 < probe →
          t.dev.hp.toInUse = s.dev.hp.probeLast.getD (-60) ∧ t.dev.hp.probeLast = s.dev.hp.probeLast
            ∧ t.dev.sc.alarms = { s.dev.sc.alarms with probeFault := true })
      ∧ t.dev.hcu.grant ≤ t.dev.hp.q
      ∧ t.dev.hcu.stage ≤ s.dev.hcu.stage ∧ (∀ r, t.dev.hcu.raise = some r → r ≤ t.dev.hcu.stage + 1)
      ∧ t.dev.hcu.announced = s.dev.hcu.announced
      ∧ (∀ id, s.dev.identity = some id → s.dev.cu.phase.withCoach = true →
          t.dev.hcu.energy =
              min 4294967295 (s.dev.hcu.energy + id.rating * 500 * s.dev.hcu.stage / id.stages)
            ∧ t.dev.hcu.sat = (s.dev.hcu.sat
                || decide (4294967295 < s.dev.hcu.energy + id.rating * 500 * s.dev.hcu.stage / id.stages)))
      ∧ t.dev.cu.retryHold = false
      ∧ (s.dev.sc.mode.speaks = true → t.dev.lu.unbegun = true)
      ∧ t.dev.pins = s.dev.pins ∧ t.dev.sc.config = s.dev.sc.config ∧ t.dev.cu.plan = s.dev.cu.plan
      ∧ t.dev.cu.holdLanes = s.dev.cu.holdLanes ∧ t.dev.lu.peers = s.dev.lu.peers
      ∧ t.dev.lu.stats = s.dev.lu.stats ∧ t.dev.lu.flight = s.dev.lu.flight ∧ t.dev.lu.lists = s.dev.lu.lists)
  ∧ ∀ (s : State) (t0 : Nat) (probe : Int) (ends first : Bool) (read ready : Device) (granted chosen : Hcu),
    s.dev.hcu.claimTimer = some t0 →
    (ends = true ↔ ∃ n, s.dev.sc.rejoin = some n ∧ n ≤ 1) →
    read =
      { s.dev with
        clock := max s.dev.clock t0,
        sc := { s.dev.sc with
          mode := if ends = true then .run else s.dev.sc.mode,
          rejoin := if ends = true then none else s.dev.sc.rejoin.map (· - 1),
          alarms := { s.dev.sc.alarms with
            probeFault := s.dev.sc.alarms.probeFault || decide (probe < -90 ∨ 110 < probe) } },
        hp := { s.dev.hp with
          toInUse :=
            if -90 ≤ probe ∧ probe ≤ 110 then max (-80) (min 100 probe) else s.dev.hp.probeLast.getD (-60),
          probeLast :=
            if -90 ≤ probe ∧ probe ≤ 110 then some (max (-80) (min 100 probe)) else s.dev.hp.probeLast },
        hcu := { s.dev.hcu with
          claimTimer := some (t0 + 2000000), rejoinCap := if ends = true then none else s.dev.hcu.rejoinCap } } →
    first = (read.hpRuns && s.dev.hp.firstRun) →
    ready =
      { read with
        hp := { read.hpValues with
          reached :=
            match s.dev.cu.phase.identified, s.dev.cu.plan, s.dev.clc.usableTc with
            | true, some plan, some tc =>
              if s.dev.hp.reached = true then decide (plan.target - 6 ≤ tc) else decide (plan.target - 2 ≤ tc)
            | _, _, _ => s.dev.hp.reached,
          firstRun := s.dev.hp.firstRun && !first } } →
    granted = { ready.hcu with grant := ready.grantNow } →
    chosen = granted.choose ({ ready with hcu := granted }).targetStage →
    CompletesWith (.claimTick probe) s
      { ready with
        sc := { ready.sc with heat := if first = true then s.dev.sc.heat.touch else s.dev.sc.heat },
        hcu :=
          match s.dev.identity with
          | none => chosen
          | some id =>
            { chosen with
              energy := min 4294967295 (s.dev.hcu.energy + id.rating * 500 * s.dev.hcu.stage / id.stages),
              sat := s.dev.hcu.sat
                || decide (4294967295 < s.dev.hcu.energy + id.rating * 500 * s.dev.hcu.stage / id.stages) },
        cu := { s.dev.cu with retryHold := false },
        lu := { s.dev.lu with unbegun := s.dev.lu.unbegun || ready.sc.mode.speaks } }
      fun t => s.dev.evaluated → s.dev.phaseSettled → (s.dev.sc.rejoin = none ∨ s.dev.sc.mode = .isolated) →
        t.hp = ready.hp ∧ t.hcu.grant = ready.grantNow
        ∧ (first = true → s.dev.sc.heat.status ≠ .off → t.sc.heat = ⟨.dirty, true⟩)
        ∧ (t.hcu.window = s.dev.hcu.window →
            t.hcu.target = chosen.target ∧ t.hcu.stage = chosen.stage ∧ t.hcu.raise = chosen.raise)

/-! ### Plug and coupling -/

/-- A change of level on PLUG or SHED starts the debounce of the new level, or stops it when the level agrees with the
debounced state (R26, R108); a change on PRES restarts or stops the presence timer in DEPARTING with the sensor fitted
(R136). Nothing else changes. Deadlines: log entry 2. That no filter counts while the device is held in reset is the
model's choice of where START stands, log entry 4. -/
def Obligations.PinChangesStartTheFilters : Prop :=
  (∀ (s : State) (seated : Bool), s.dev.pins.plug ≠ seated →
    Makes (.plugPinChange seated) s
      { s.dev with
        pins := { s.dev.pins with plug := seated },
        clc := { s.dev.clc with
          plugFilter :=
            if s.dev.sc.startStep = .held ∨ seated = s.dev.clc.plug then none else some (s.dev.clock + 200000) } })
  ∧ (∀ (s : State) (high : Bool), s.dev.pins.shedHigh ≠ high →
    Makes (.shedPinChange high) s
      { s.dev with
        pins := { s.dev.pins with shedHigh := high },
        hcu := { s.dev.hcu with
          shedFilter :=
            if s.dev.sc.startStep = .held ∨ s.dev.hcu.asserted = !high then none
            else some (s.dev.clock + 50000) } })
  ∧ ∀ (s : State) (vehicle : Bool), s.dev.pins.vehicle ≠ vehicle →
    Makes (.presenceChange vehicle) s
      { s.dev with
        pins := { s.dev.pins with vehicle := vehicle },
        cu := { s.dev.cu with
          presence :=
            if s.dev.cu.phase = .departing ∧ s.dev.conf.presenceFitted = true then
              (if vehicle = true then none else some (s.dev.clock + 3000000))
            else s.dev.cu.presence } }

/-- PLUG_PRESENT makes the plug PRESENT (R26); in RUN and ISOLATED, with the bay VACANT or DEPARTING, coupling begins
with it: the coach is torn down and IDENTIFY is being sent (R27, R28). Clock and deadlines: log entry 2. -/
def Obligations.PlugPresentBeginsCoupling : Prop :=
  ∀ (s : State) (t0 : Nat), s.dev.clc.plugFilter = some t0 → s.dev.clc.plug = false → s.dev.pins.plug = true →
    Completes .plugPresent s
      { s.dev with
        clock := max s.dev.clock t0, clc := { s.dev.clc with plug := true, plugFilter := none } }
    ∧ (s.dev.sc.mode.heats = true → (s.dev.cu.phase = .vacant ∨ s.dev.cu.phase = .departing) →
        ∃ t, exec .plugPresent s = .next t ∧ Couples t.dev ∧ t.dev.clc.plug = true)

/-- UNPLUG: the phase it leads to and PULLOUT (R134, Table 49), and what the CLC drops and keeps (R38). Clock and
deadlines: log entry 2. -/
def Obligations.UnplugMovesThePhase : Prop :=
  ∀ (s : State) (t0 : Nat), s.dev.clc.plugFilter = some t0 → s.dev.clc.plug = true → s.dev.pins.plug = false →
    ∃ t, exec .unplug s = .next t ∧ t.pending = s.pending ∧ t.dev.clock = max s.dev.clock t0
      ∧ t.dev.cu.phase =
          (if s.dev.cu.phase = .cleared ∨ s.dev.cu.phase = .departing then .departing else .vacant)
      ∧ t.dev.sc.alarms =
          { s.dev.sc.alarms with
            pullout := s.dev.sc.alarms.pullout
              || decide (s.dev.cu.phase = .preparing ∨ s.dev.cu.phase = .ready ∨ s.dev.cu.phase = .clearing) }
      ∧ t.dev.clc.plug = false ∧ t.dev.clc.plugFilter = none ∧ t.dev.clc.linkUp = false
      ∧ t.dev.clc.exchange = none ∧ t.dev.clc.pendingId = false ∧ t.dev.clc.pendingPoll = false
      ∧ t.dev.clc.pendingRead = none ∧ t.dev.clc.heldIdentity = none ∧ t.dev.clc.retryTimer = none
      ∧ t.dev.clc.pollTimer = none ∧ t.dev.clc.changeCount = s.dev.clc.changeCount
      ∧ t.dev.sc.mode = s.dev.sc.mode ∧ t.dev.sc.config = s.dev.sc.config ∧ t.dev.pins = s.dev.pins
      ∧ t.dev.hcu.energy = s.dev.hcu.energy ∧ t.dev.hcu.announced = s.dev.hcu.announced
      ∧ t.dev.hcu.grant ≤ s.dev.hcu.grant ∧ t.dev.hcu.stage ≤ s.dev.hcu.stage
      ∧ t.dev.cu.holdLanes = s.dev.cu.holdLanes ∧ t.dev.lu.peers = s.dev.lu.peers
      ∧ t.dev.lu.stats = s.dev.lu.stats ∧ t.dev.lu.flight = s.dev.lu.flight ∧ t.dev.lu.lists = s.dev.lu.lists

/-- What an unplug leaves of the coach: on the way to VACANT all of it goes, the plan and the lane holds staying (R3,
R41, R64, R95, R111, R137); from CLEARED the identity and the lane holds stay in DEPARTING, the plan with its masks is
consumed, the presence timer starts and a running sequence ends ABORTED (R51, R135, R136). Clock and deadlines: log entry 2. That the
contest key goes with the contest is the model's choice, log entry 38. -/
def Obligations.UnplugLeavesOfTheCoach : Prop :=
  (∀ (s : State) (t0 : Nat), s.dev.clc.plugFilter = some t0 → s.dev.clc.plug = true → s.dev.pins.plug = false →
    (s.dev.cu.phase = .coupling ∨ s.dev.cu.phase = .coupled ∨ s.dev.cu.phase = .preparing
      ∨ s.dev.cu.phase = .ready ∨ s.dev.cu.phase = .clearing) →
    ∃ t, exec .unplug s = .next t
      ∧ t.dev.identity = none ∧ t.dev.ftu = Ftu.reset
      ∧ (∀ c ∈ t.dev.ltu.channels, c.num ≤ 16 → c = Channel.off c.num)
      ∧ t.dev.hp = { Hp.reset with toInUse := s.dev.hp.toInUse, probeLast := s.dev.hp.probeLast }
      ∧ t.dev.hcu.stage = 0 ∧ t.dev.hcu.grant = 0 ∧ t.dev.hcu.window = .none
      ∧ t.dev.clc.lastStatus = none ∧ t.dev.clc.tcState = .none
      ∧ t.dev.sc.heat = ⟨.off, false⟩ ∧ t.dev.sc.lamp = ⟨.off, false⟩ ∧ t.dev.sc.fault = ⟨.off, false⟩
      ∧ t.dev.cu.plan = s.dev.cu.plan ∧ t.dev.cu.holdLanes = s.dev.cu.holdLanes
      ∧ t.dev.cu.matchState = .none ∧ t.dev.cu.intent = .none ∧ t.dev.cu.key = none)
  ∧ ∀ (s : State) (t0 : Nat), s.dev.clc.plugFilter = some t0 → s.dev.clc.plug = true → s.dev.pins.plug = false →
    s.dev.cu.phase = .cleared →
    ∃ t, exec .unplug s = .next t
      ∧ t.dev.identity = s.dev.identity ∧ t.dev.clc.lastStatus = s.dev.clc.lastStatus
      ∧ t.dev.clc.tcState = s.dev.clc.tcState
      ∧ t.dev.cu.plan = none ∧ t.dev.cu.holdLanes = s.dev.cu.holdLanes
      ∧ (∀ c ∈ t.dev.ltu.channels, c.masked = false)
      ∧ t.dev.cu.matchState = .none ∧ t.dev.cu.intent = .none ∧ t.dev.cu.key = none
      ∧ t.dev.cu.spacing = s.dev.cu.spacing
      ∧ t.dev.cu.presence =
          (if s.dev.conf.presenceFitted = true then
            (if s.dev.pins.vehicle = true then none else some (max s.dev.clock t0 + 3000000))
          else some (max s.dev.clock t0 + 60000000))
      ∧ t.dev.ftu.read = none ∧ t.dev.ftu.refreshTimer = none
      ∧ t.dev.ftu.table.map FaultEntry.record = s.dev.ftu.table.map FaultEntry.record
      ∧ (s.dev.ftu.read.isSome = true → t.dev.ftu.lastEnding = .aborted ∧ t.dev.ftu.reread = false)
      ∧ t.dev.hp.q = 0 ∧ t.dev.hcu.grant = 0 ∧ t.dev.hcu.stage = 0

/-! ### The Coach Link -/

/-- REQUEST_SENT opens the reply window for 50 ms, a LEAD byte in it begins a reply whose end no longer is timed, and
ATTEMPT_START sends the request again (R21, R22, R23), nothing else changing. After the first and the second failed
attempt the same request goes again: at once after a missing reply and after the gap that discards a frame, which is the
quiet it waits for, and after the 3 byte times of quiet otherwise (R23, R24). A late frame in that wait puts the attempt off
until it has ended, is used for nothing whatever it is, and is waited out in its turn (R23). Clock and deadlines: log entry
2. What is left of the 3 byte times at the end of a byte is 1,042 µs by log entry 16; how a late frame reaches the model is
log entry 34. -/
def Obligations.AttemptsFollowTheLink : Prop :=
  (∀ (s : State) (x : Exchange), s.dev.clc.exchange = some x → x.step = .sending →
    Makes .requestSent s
      { s.dev with
        clc := { s.dev.clc with exchange := some { x with step := .window, timer := some (s.dev.clock + 50000) } } })
  ∧ (∀ (s : State) (x : Exchange), s.dev.clc.exchange = some x → x.step = .window →
    Makes .replyFrameBegin s
      { s.dev with clc := { s.dev.clc with exchange := some { x with step := .receiving, timer := none } } })
  ∧ (∀ (s : State) (x : Exchange), s.dev.clc.exchange = some x → x.step = .waitQuiet →
    Makes .replyFrameBegin s
      { s.dev with clc := { s.dev.clc with exchange := some { x with step := .lateFrame, timer := none } } })
  ∧ (∀ (s : State) (x : Exchange) (c : Instr), s.dev.clc.exchange = some x → x.step = .lateFrame →
    (c = .attemptStart ∨ c = .replyTimeout ∨ c = .replyFrameBegin → Makes c s s.dev)
    ∧ ((∃ payload, c = .identity payload ∨ c = .profile payload ∨ c = .status payload ∨ c = .opened payload
          ∨ c = .records payload)
        ∨ c = .busy ∨ (∃ found, c = .replyFrameDiscarded found) →
        Completes c s
          { s.dev with
            clc := { s.dev.clc with
              exchange := some ⟨x.request, x.attempt, .waitQuiet, some (s.dev.clock + 1042)⟩ } })
    ∧ (c = .replyGapTimeout →
        Completes c s
          { s.dev with
            clc := { s.dev.clc with exchange := some ⟨x.request, x.attempt + 1, .sending, none⟩ } }))
  ∧ (∀ (s : State) (x : Exchange) (t0 : Nat), s.dev.clc.exchange = some x → x.step = .waitQuiet → x.timer = some t0 →
    Makes .attemptStart s
      { s.dev with
        clock := max s.dev.clock t0,
        clc := { s.dev.clc with exchange := some ⟨x.request, x.attempt + 1, .sending, none⟩ } })
  ∧ (∀ (s : State) (x : Exchange) (t0 : Nat), s.dev.clc.exchange = some x → x.step = .window → x.timer = some t0 →
    x.attempt < 3 →
    Completes .replyTimeout s
      { s.dev with
        clock := max s.dev.clock t0,
        clc := { s.dev.clc with exchange := some ⟨x.request, x.attempt + 1, .sending, none⟩ } })
  ∧ (∀ (s : State) (x : Exchange), s.dev.clc.exchange = some x → x.step = .receiving → x.attempt < 3 →
    Completes .replyGapTimeout s
      { s.dev with
        clc := { s.dev.clc with exchange := some ⟨x.request, x.attempt + 1, .sending, none⟩ } })
  ∧ ∀ (s : State) (x : Exchange) (found : ReplyFault), s.dev.clc.exchange = some x → x.step = .receiving →
    x.attempt < 3 →
    Completes (.replyFrameDiscarded found) s
      { s.dev with
        clc := { s.dev.clc with
          exchange := some ⟨x.request, x.attempt, .waitQuiet, some (s.dev.clock + 1042)⟩ } }

/-- The third failed attempt ends the exchange with failure: the link is DOWN, LINK_LOST is latched by a change from
UP in the coupled phases, a pending READ is taken back, identification waits 5 s for its retry, and a read sequence
ends INCOMPLETE; the exchange in flight is over, and the next kind pending is served (R24, R29, R30, R31, R32, R37, R45,
R46). Clock and deadlines: log entry 2. That a sequence with no READ in flight or pending, one in its BUSY wait, goes on
when another exchange takes the link DOWN is the model's choice, log entry 11. -/
def Obligations.ThirdFailureEndsTheExchange : Prop :=
  ∀ (s : State) (x : Exchange) (c : Instr) (now : Nat) (reads : Bool), s.dev.clc.exchange = some x → 3 ≤ x.attempt →
    ((c = .replyTimeout ∧ x.step = .window ∧ ∃ t0, x.timer = some t0 ∧ now = max s.dev.clock t0)
      ∨ ((c = .replyGapTimeout ∨ ∃ found, c = .replyFrameDiscarded found) ∧ x.step = .receiving
        ∧ now = s.dev.clock)) →
    (reads = true ↔ s.dev.clc.pendingRead.isSome = true
      ∨ (x.request ≠ .identify ∧ x.request ≠ .getProfile ∧ x.request ≠ .poll)) →
    CompletesWith c s
      { s.dev with
        clock := now,
        sc := { s.dev.sc with
          alarms := { s.dev.sc.alarms with
            linkLost := s.dev.sc.alarms.linkLost || (s.dev.clc.linkUp && s.dev.cu.phase.identified) } },
        clc := { s.dev.clc with
          exchange := none, linkUp := false, pendingRead := none,
          heldIdentity :=
            if x.request = .identify ∨ x.request = .getProfile then none else s.dev.clc.heldIdentity,
          retryTimer :=
            if x.request = .identify ∨ x.request = .getProfile then some (now + 5000000)
            else s.dev.clc.retryTimer },
        ftu :=
          if s.dev.ftu.read.isSome = true ∧ reads = true then
            { s.dev.ftu with read := none, busyWait := none, lastEnding := .incomplete }
          else s.dev.ftu }
      fun t => s.dev.coupleNow = false →
        t.clc.linkUp = false ∧ t.clc.pendingRead = none ∧ (reads = true → t.ftu.read = none)
        ∧ (reads = false → t.ftu.read = s.dev.ftu.read)
        ∧ (s.dev.clc.pendingId = false → s.dev.clc.pendingPoll = false → t.clc.exchange = none)
        ∧ (s.dev.clc.pendingId = false → s.dev.clc.pendingPoll = true →
            t.clc.exchange = some ⟨.poll, 1, .sending, none⟩ ∧ t.clc.pendingPoll = false)
        ∧ (s.dev.clc.pendingId = true → x.request = .identify ∨ x.request = .getProfile →
            t.clc.exchange = some ⟨.identify, 1, .sending, none⟩ ∧ t.clc.pendingId = false)
        ∧ ((x.request = .identify ∨ x.request = .getProfile) →
            t.clc.heldIdentity = none ∧ t.clc.retryTimer = some (now + 5000000))

/-- A reply of a TYPE that the request does not accept, or of a LEN that its TYPE does not permit, acts as a discarded
reply frame: the attempt fails and nothing of it is used (R22, R23, R25). The LEN is log entry 7. -/
def Obligations.UnacceptedRepliesFailTheAttempt : Prop :=
  ∀ (s : State) (x : Exchange) (payload : List Byte), s.dev.clc.exchange = some x → x.step = .receiving →
    ((x.request ≠ .identify ∨ payload.length ≠ 10) →
      exec (.identity payload) s = exec (.replyFrameDiscarded .wrongType) s)
    ∧ ((x.request ≠ .getProfile ∨ payload.length ≠ 16) →
      exec (.profile payload) s = exec (.replyFrameDiscarded .wrongType) s)
    ∧ ((x.request ≠ .poll ∨ payload.length ≠ 3) →
      exec (.status payload) s = exec (.replyFrameDiscarded .wrongType) s)
    ∧ (((∀ start budget, x.request ≠ .openRead start budget) ∨ payload.length ≠ 1) →
      exec (.opened payload) s = exec (.replyFrameDiscarded .wrongType) s)
    ∧ (((∀ toggle, x.request ≠ .fetch toggle)
        ∨ (payload.length ≠ 1 ∧ payload.length ≠ 9 ∧ payload.length ≠ 17)) →
      exec (.records payload) s = exec (.replyFrameDiscarded .wrongType) s)
    ∧ ((∀ start budget, x.request ≠ .openRead start budget) → (∀ toggle, x.request ≠ .fetch toggle) →
      exec .busy s = exec (.replyFrameDiscarded .wrongType) s)

/-- IDENTITY is held and GET-PROFILE is being sent (R29); the 5 s retry and the 5 s poll make their exchanges pending,
the next poll falling 5 s after this one (R29, R33), and what is pending is served when nothing is in flight, in the
order IDENTIFICATION, POLL, READ, and waits otherwise (R32). Clock and deadlines: log entry 2. -/
def Obligations.IdentificationAndPollGoOn : Prop :=
  (∀ (s : State) (x : Exchange) (payload : List Byte), s.dev.clc.exchange = some x → x.step = .receiving →
    x.request = .identify → payload.length = 10 →
    CompletesWith (.identity payload) s
      { s.dev with
        clc := { s.dev.clc with
          exchange := none, linkUp := true, heldIdentity := some payload, pendingId := true } }
      fun t => s.dev.coupleNow = false →
        t.clc.exchange = some ⟨.getProfile, 1, .sending, none⟩ ∧ t.clc.heldIdentity = some payload
        ∧ t.clc.linkUp = true ∧ t.clc.pendingId = false ∧ t.clc.pendingPoll = s.dev.clc.pendingPoll)
  ∧ (∀ (s : State) (t0 : Nat), s.dev.clc.retryTimer = some t0 →
    CompletesWith .identificationRetryExpiry s
      { s.dev with
        clock := max s.dev.clock t0, clc := { s.dev.clc with retryTimer := none, pendingId := true } }
      fun t => s.dev.coupleNow = false →
        t.clc.retryTimer = none
        ∧ (s.dev.clc.exchange = none → s.dev.clc.heldIdentity = none →
            t.clc.exchange = some ⟨.identify, 1, .sending, none⟩ ∧ t.clc.pendingId = false)
        ∧ (∀ x, s.dev.clc.exchange = some x → t.clc.exchange = some x ∧ t.clc.pendingId = true))
  ∧ (∀ (s : State) (t0 : Nat), s.dev.clc.pollTimer = some t0 →
    CompletesWith .pollDue s
      { s.dev with
        clock := max s.dev.clock t0,
        clc := { s.dev.clc with pollTimer := some (t0 + 5000000), pendingPoll := true } }
      fun t => s.dev.coupleNow = false →
        t.clc.pollTimer = some (t0 + 5000000)
        ∧ (s.dev.clc.exchange = none → s.dev.clc.pendingId = false →
            t.clc.exchange = some ⟨.poll, 1, .sending, none⟩ ∧ t.clc.pendingPoll = false)
        ∧ (s.dev.clc.exchange = none → s.dev.clc.pendingId = true → t.clc.pendingPoll = true)
        ∧ (∀ x, s.dev.clc.exchange = some x → t.clc.exchange = some x ∧ t.clc.pendingPoll = true))
  ∧ ∀ clc : Clc,
    (clc.exchange.isSome = true → clc.serve = clc)
    ∧ (clc.exchange = none → clc.pendingId = true →
        clc.serve =
          { clc with
            exchange := some ⟨if clc.heldIdentity.isSome = true then .getProfile else .identify, 1, .sending, none⟩,
            pendingId := false })
    ∧ (clc.exchange = none → clc.pendingId = false → clc.pendingPoll = true →
        clc.serve = { clc with exchange := some ⟨.poll, 1, .sending, none⟩, pendingPoll := false })
    ∧ (∀ request, clc.exchange = none → clc.pendingId = false → clc.pendingPoll = false →
        clc.pendingRead = some request →
        clc.serve = { clc with exchange := some ⟨request, 1, .sending, none⟩, pendingRead := none })
    ∧ (clc.exchange = none → clc.pendingId = false → clc.pendingPoll = false → clc.pendingRead = none →
        clc.serve = clc)

/-- PROFILE ends identification: the clamped identity is written, channels 1..16 take the profile with the plan's mask
and the corroboration, HEAT, LAMP and FAULT become INITIAL, the change count is set and polling begins (R1, R10, R12,
R29, R33, R36, R63); in COUPLING with no identification pending the POLL due at once is being sent (R32, R33). Clock and
deadlines: log entry 2. `firstRun` is log entry 28. LAMP and FAULT are INITIAL after the whole event (log entry 22), but for
the full pass that a MATCHED plan makes due: where its beginning clears final on a signal channel, LAMP is DIRTY (R12, R13,
R63, R72). -/
def Obligations.ProfileIdentifiesTheCoach : Prop :=
  ∀ (s : State) (x : Exchange) (idn payload : List Byte), s.dev.clc.exchange = some x → x.step = .receiving →
    x.request = .getProfile → s.dev.clc.heldIdentity = some idn → payload.length = 16 →
    Completes (.profile payload) s
      { s.dev with
        identity := some (readIdentity idn payload),
        clc := { s.dev.clc with
          exchange := none, linkUp := true, heldIdentity := none, changeCount := some (byteAt idn 9),
          pendingPoll := true, pollTimer := some (s.dev.clock + 5000000) },
        ltu := { s.dev.ltu with
          channels := s.dev.ltu.channels.map fun c =>
            if c.num ≤ 16 then
              { num := c.num,
                status := if ((readIdentity idn payload).entry c.num).fitted = true then .initial else .off,
                lastV := 0, lastI := 0, retries := 0,
                masked := ((readIdentity idn payload).entry c.num).fitted
                  && (match s.dev.cu.plan with
                    | none => false
                    | some plan => plan.mask.getLsbD (c.num - 1)),
                coachReported := ((readIdentity idn payload).entry c.num).fitted && s.dev.ftu.corroborates c.num,
                confirmed := false, isFinal := false }
            else { c with masked := false } },
        hp := { s.dev.hp with firstRun := true },
        sc := { s.dev.sc with
          heat := ⟨.initial, false⟩, lamp := ⟨.initial, false⟩, fault := ⟨.initial, false⟩ } }
    ∧ (s.dev.sc.lamp.status = .off → s.dev.sc.fault.status = .off → s.dev.cu.phase = .coupling →
        ∃ t, exec (.profile payload) s = .next t
          ∧ ((∀ c ∈ s.dev.ltu.channels, 16 < c.num → c.isFinal = true → c.confirmed = true) →
              t.dev.sc.lamp = ⟨.initial, false⟩)
          ∧ (∀ (plan : Plan) (c : Channel), s.dev.cu.plan = some plan →
              (plan.coach = 0 ∨ plan.coach = (readIdentity idn payload).number) → s.dev.ltu.pass = none →
              s.dev.ltu.pendingRetest = false → s.dev.ltu.pendingSignal = false → c ∈ s.dev.ltu.channels →
              16 < c.num → c.status ≠ .off → c.coachReported = false → c.isFinal = true → c.confirmed = false →
              t.dev.sc.lamp = ⟨.dirty, true⟩)
          ∧ t.dev.sc.fault = ⟨.initial, false⟩ ∧ t.dev.cu.phase.identified = true
          ∧ (s.dev.clc.pendingId = false →
              t.dev.clc.exchange = some ⟨.poll, 1, .sending, none⟩ ∧ t.dev.clc.pendingPoll = false))

/-- STATUS gives the cabin temperature, taken to the nearest of −80..100 and CURRENT from now on (R25, R34), and a change
count that differs asks for a read sequence: it begins where none runs, and is asked for again where one does (R36, R42,
R43). 15 s after it arrived the temperature is HELD, 120 s after it STALE with STALE set and the claim 0 (R35, R93).
Clock and deadlines: log entry 2. TC_STALE from CURRENT is log entry 18, its flag in every phase log entry 21. -/
def Obligations.StatusAndItsAge : Prop :=
  (∀ (s : State) (x : Exchange) (payload : List Byte), s.dev.clc.exchange = some x → x.step = .receiving →
    x.request = .poll → payload.length = 3 →
    CompletesWith (.status payload) s
      { s.dev with
        clc := { s.dev.clc with
          exchange := none, linkUp := true,
          lastStatus := some ⟨max (-80) (min 100 (signedAt payload 0)), s.dev.clock⟩, tcState := .current,
          changeCount := s.dev.clc.changeCount.map fun _ => byteAt payload 2 },
        ftu := { s.dev.ftu with
          reread := s.dev.ftu.reread
            || (s.dev.cu.phase.identified
              && (match s.dev.clc.changeCount with
                | none => false
                | some seen => decide (seen ≠ byteAt payload 2))) } }
      fun t => ∀ seen, s.dev.cu.phase.identified = true → s.dev.clc.changeCount = some seen →
        seen ≠ byteAt payload 2 →
        t.clc.changeCount = some (byteAt payload 2)
        ∧ (s.dev.ftu.read = none →
            t.ftu.read = some ⟨0, 32, false⟩ ∧ t.ftu.reread = false ∧ t.ftu.busyCount = 0
            ∧ t.ftu.refreshTimer = some (s.dev.clock + 120000000) ∧ t.ftu.droppedInSequence = false
            ∧ t.ftu.table = s.dev.ftu.table.map (fun e => { e with seen := false })
            ∧ (s.dev.clc.pendingId = false → s.dev.clc.pendingPoll = false →
                t.clc.exchange = some ⟨.openRead 0 32, 1, .sending, none⟩))
        ∧ (s.dev.ftu.read.isSome = true → t.ftu.read = s.dev.ftu.read ∧ t.ftu.reread = true))
  ∧ (∀ (s : State) (last : LastStatus), s.dev.clc.tcState = .current → s.dev.clc.lastStatus = some last →
    Completes .tcHeld s
      { s.dev with
        clock := max s.dev.clock (last.arrived + 15000000), clc := { s.dev.clc with tcState := .held } })
  ∧ ∀ (s : State) (last : LastStatus), (s.dev.clc.tcState = .current ∨ s.dev.clc.tcState = .held) →
    s.dev.clc.lastStatus = some last →
    ∃ t, exec .tcStale s = .next t ∧ t.pending = s.pending
      ∧ Followed
          { s.dev with
            clock := max s.dev.clock (last.arrived + 120000000), clc := { s.dev.clc with tcState := .stale },
            hp := { s.dev.hp with stale := true } } t.dev
      ∧ t.dev.hp.q = 0 ∧ t.dev.hcu.grant = 0 ∧ t.dev.hcu.stage = 0

/-! ### Fault reading -/

/-- OPENED: with records from the start index on FETCH goes on with the toggle 0, otherwise the sequence ends COMPLETE
(R45, R50); either way the BUSY count goes back to 0 (R47). -/
def Obligations.OpenedGoesOnOrCompletes : Prop :=
  ∀ (s : State) (x : Exchange) (start budget : Nat) (payload : List Byte) (read : CurrentRead),
    s.dev.clc.exchange = some x → x.step = .receiving → x.request = .openRead start budget → payload.length = 1 →
    s.dev.ftu.read = some read →
    (read.start < min 96 (byteAt payload 0) →
      Completes (.opened payload) s
        { s.dev with
          clc := { s.dev.clc with exchange := none, linkUp := true, pendingRead := some (.fetch false) },
          ftu := { s.dev.ftu with read := some ⟨read.start, 32, true⟩, toggle := false, busyCount := 0 } })
    ∧ (min 96 (byteAt payload 0) ≤ read.start →
      Completes (.opened payload) s
        { s.dev with
          clc := { s.dev.clc with exchange := none, linkUp := true },
          ftu := { s.dev.ftu with
            table := s.dev.ftu.table.filter FaultEntry.seen, read := none, busyWait := none, lastEnding := .complete,
            busyCount := 0,
            blockingDropped := s.dev.ftu.droppedInSequence, lastComplete := some s.dev.clock,
            ageTimer := some (s.dev.clock + 180000000) } })

/-- An accepted RECORDS frame in the phases of an identified coach: every record is merged in its order (R46, R53);
the end flag completes the sequence (R50), a used budget opens the next read or ends the sequence INCOMPLETE at start
index 64 (R48), and otherwise FETCH goes on with the other toggle. A sequence that ends leaves no read, or a new one where
a re-read is pending (R43, R50). The next exchange is being sent where no other kind
is pending, and pending where one is (R32). The budget of 32 that the next read shows before it is opened is log entry
29. -/
def Obligations.RecordsFrameIsMerged : Prop :=
  ∀ (s : State) (x : Exchange) (toggle : Bool) (payload : List Byte) (read : CurrentRead) (merged : Ftu),
    s.dev.cu.phase.identified = true → s.dev.clc.exchange = some x → x.step = .receiving →
    x.request = .fetch toggle →
    (payload.length = 1 ∨ payload.length = 9 ∨ payload.length = 17) → s.dev.ftu.read = some read →
    recordsToggle payload = s.dev.ftu.toggle →
    merged = (recordsOf payload).foldl (fun ftu r => ftu.merge s.dev.conf.restrictive r) s.dev.ftu →
    ∃ t, exec (.records payload) s = .next t ∧ t.pending = s.pending ∧ t.dev.clock = s.dev.clock
      ∧ t.dev.clc.linkUp = true ∧ t.dev.ftu.busyCount = 0 ∧ t.dev.ftu.overflow = merged.overflow
      ∧ (recordsEnd payload = true →
          t.dev.ftu.table.map FaultEntry.record = (merged.table.filter FaultEntry.seen).map FaultEntry.record
          ∧ t.dev.ftu.lastEnding = .complete ∧ t.dev.ftu.lastComplete = some s.dev.clock
          ∧ t.dev.ftu.blockingDropped = merged.droppedInSequence
          ∧ t.dev.ftu.ageTimer = some (s.dev.clock + 180000000)
          ∧ (s.dev.ftu.reread = false → t.dev.ftu.read = none
            ∧ (s.dev.clc.pendingId = false → s.dev.clc.pendingPoll = false → s.dev.clc.pendingRead = none →
                t.dev.clc.exchange = none)))
      ∧ (recordsEnd payload = false →
          t.dev.ftu.table.map FaultEntry.record = merged.table.map FaultEntry.record
          ∧ t.dev.ftu.blockingDropped = merged.blockingDropped ∧ t.dev.ftu.ageTimer = s.dev.ftu.ageTimer
          ∧ (0 < read.budget - (recordsOf payload).length →
              t.dev.ftu.read = some ⟨read.start, read.budget - (recordsOf payload).length, read.fetching⟩
              ∧ t.dev.ftu.toggle = (!s.dev.ftu.toggle)
              ∧ (s.dev.clc.pendingId = false → s.dev.clc.pendingPoll = false → s.dev.clc.pendingRead = none →
                  t.dev.clc.exchange = some ⟨.fetch (!s.dev.ftu.toggle), 1, .sending, none⟩
                  ∧ t.dev.clc.pendingRead = none)
              ∧ (s.dev.clc.pendingId = true ∨ s.dev.clc.pendingPoll = true →
                  t.dev.clc.pendingRead = some (.fetch (!s.dev.ftu.toggle))))
          ∧ (read.budget - (recordsOf payload).length = 0 → read.start < 64 →
              t.dev.ftu.read = some ⟨read.start + 32, 32, false⟩
              ∧ (s.dev.clc.pendingId = false → s.dev.clc.pendingPoll = false → s.dev.clc.pendingRead = none →
                  t.dev.clc.exchange = some ⟨.openRead (read.start + 32) 32, 1, .sending, none⟩
                  ∧ t.dev.clc.pendingRead = none)
              ∧ (s.dev.clc.pendingId = true ∨ s.dev.clc.pendingPoll = true →
                  t.dev.clc.pendingRead = some (.openRead (read.start + 32) 32)))
          ∧ (read.budget - (recordsOf payload).length = 0 → 64 ≤ read.start →
              t.dev.ftu.lastEnding = .incomplete ∧ t.dev.ftu.lastComplete = s.dev.ftu.lastComplete
              ∧ (s.dev.ftu.reread = false → t.dev.ftu.read = none
                ∧ (s.dev.clc.pendingId = false → s.dev.clc.pendingPoll = false → s.dev.clc.pendingRead = none →
                    t.dev.clc.exchange = none))))
      ∧ (recordsEnd payload = true ∨ (read.budget - (recordsOf payload).length = 0 ∧ 64 ≤ read.start) →
          s.dev.ftu.reread = true → t.dev.ftu.read = some ⟨0, 32, false⟩ ∧ t.dev.ftu.reread = false)
      ∧ t.dev.identity = s.dev.identity ∧ t.dev.sc.mode = s.dev.sc.mode ∧ t.dev.cu.plan = s.dev.cu.plan
      ∧ t.dev.hcu.energy = s.dev.hcu.energy ∧ t.dev.lu.peers = s.dev.lu.peers

/-- BUSY and a duplicate RECORDS frame count toward 20: below it BUSY waits 100 ms and a duplicate offers FETCH again;
at 20 the sequence ends INCOMPLETE. The end of the wait offers the exchange again, or ends the sequence INCOMPLETE
with the link DOWN (R37, R45, R46, R47). What is offered again is being sent once the link is free for it (R32). The
refresh timer's expiry asks for a read sequence in the phases of an identified coach, which begins where none runs and
the link is UP (R42, R43, R44), and the age timer's expiry leaves FAULT_PENDING present with a coach (R60). Clock and
deadlines: log entry 2. The end with the link DOWN at the retry is log entry 11. -/
def Obligations.BusyAndFaultTimers : Prop :=
  (∀ (s : State) (x : Exchange), s.dev.clc.exchange = some x → x.step = .receiving →
    ((∃ start budget, x.request = .openRead start budget) ∨ ∃ toggle, x.request = .fetch toggle) →
    s.dev.ftu.read.isSome = true →
    Completes .busy s
      { s.dev with
        clc := { s.dev.clc with exchange := none, linkUp := true },
        ftu :=
          if s.dev.ftu.busyCount + 1 < 20 then
            { s.dev.ftu with busyCount := s.dev.ftu.busyCount + 1, busyWait := some (s.dev.clock + 100000) }
          else
            { s.dev.ftu with
              busyCount := s.dev.ftu.busyCount + 1, read := none, busyWait := none, lastEnding := .incomplete } })
  ∧ (∀ (s : State) (x : Exchange) (toggle : Bool) (payload : List Byte) (read : CurrentRead),
    s.dev.clc.exchange = some x → x.step = .receiving → x.request = .fetch toggle →
    (payload.length = 1 ∨ payload.length = 9 ∨ payload.length = 17) → s.dev.ftu.read = some read →
    recordsToggle payload ≠ s.dev.ftu.toggle →
    (s.dev.ftu.busyCount + 1 < 20 →
      CompletesWith (.records payload) s
        { s.dev with
          clc := { s.dev.clc with
            exchange := none, linkUp := true,
            pendingRead :=
              some (if read.fetching = true then .fetch s.dev.ftu.toggle else .openRead read.start 32) },
          ftu := { s.dev.ftu with busyCount := s.dev.ftu.busyCount + 1 } }
        fun t => s.dev.coupleNow = false → s.dev.clc.pendingId = false → s.dev.clc.pendingPoll = false →
          t.ftu.read = some read ∧ t.ftu.busyCount = s.dev.ftu.busyCount + 1
          ∧ t.clc.exchange =
              some ⟨if read.fetching = true then .fetch s.dev.ftu.toggle else .openRead read.start 32,
                1, .sending, none⟩)
    ∧ (20 ≤ s.dev.ftu.busyCount + 1 →
      Completes (.records payload) s
        { s.dev with
          clc := { s.dev.clc with exchange := none, linkUp := true },
          ftu := { s.dev.ftu with
            busyCount := s.dev.ftu.busyCount + 1, read := none, busyWait := none, lastEnding := .incomplete } }))
  ∧ (∀ (s : State) (t0 : Nat) (read : CurrentRead), s.dev.ftu.busyWait = some t0 → s.dev.ftu.read = some read →
    (s.dev.clc.linkUp = true →
      CompletesWith .busyRetryExpiry s
        { s.dev with
          clock := max s.dev.clock t0,
          clc := { s.dev.clc with
            pendingRead :=
              some (if read.fetching = true then .fetch s.dev.ftu.toggle else .openRead read.start 32) },
          ftu := { s.dev.ftu with busyWait := none } }
        fun t => s.dev.coupleNow = false → s.dev.clc.exchange = none → s.dev.clc.pendingId = false →
          s.dev.clc.pendingPoll = false →
          t.ftu.read = some read ∧ t.ftu.busyWait = none
          ∧ t.clc.exchange =
              some ⟨if read.fetching = true then .fetch s.dev.ftu.toggle else .openRead read.start 32,
                1, .sending, none⟩)
    ∧ (s.dev.clc.linkUp = false →
      Completes .busyRetryExpiry s
        { s.dev with
          clock := max s.dev.clock t0,
          ftu := { s.dev.ftu with read := none, busyWait := none, lastEnding := .incomplete } }))
  ∧ (∀ (s : State) (t0 : Nat), s.dev.ftu.refreshTimer = some t0 →
    CompletesWith .faultRefreshExpiry s
      { s.dev with
        clock := max s.dev.clock t0,
        ftu := { s.dev.ftu with
          refreshTimer := none, reread := s.dev.ftu.reread || s.dev.cu.phase.identified } }
      fun t => s.dev.cu.phase.identified = true →
        (s.dev.ftu.read = none → s.dev.clc.linkUp = true →
          t.ftu.read = some ⟨0, 32, false⟩ ∧ t.ftu.reread = false
          ∧ t.ftu.refreshTimer = some (max s.dev.clock t0 + 120000000)
          ∧ (s.dev.clc.exchange = none → s.dev.clc.pendingId = false → s.dev.clc.pendingPoll = false →
              t.clc.exchange = some ⟨.openRead 0 32, 1, .sending, none⟩))
        ∧ (s.dev.ftu.read.isSome = true ∨ s.dev.clc.linkUp = false →
            t.ftu.read = s.dev.ftu.read ∧ t.ftu.reread = true ∧ t.ftu.refreshTimer = none))
  ∧ ∀ (s : State) (t0 : Nat), s.dev.ftu.ageTimer = some t0 →
    ∃ t, exec .faultPendingAgeExpiry s = .next t ∧ t.pending = s.pending
      ∧ Followed
          { s.dev with clock := max s.dev.clock t0, ftu := { s.dev.ftu with ageTimer := none } } t.dev
      ∧ t.dev.ftu.ageTimer = none ∧ t.dev.cu.blocks.faultPending = t.dev.cu.phase.withCoach

/-- A record that is merged: an entry of its module and code is updated in its place, a new one stands last, and with
32 entries the record evicts the candidate or is dropped and counted, held at 255 (R53, R55). -/
def Obligations.MergeUpdatesAppendsEvictsOrDrops : Prop :=
  ∀ (restrictive : BitVec 7) (ftu : Ftu) (r : FaultRecord),
    ((∃ e ∈ ftu.table, e.record.module = r.module ∧ e.record.code = r.code) →
      ftu.merge restrictive r =
        { ftu with
          table := ftu.table.map fun e =>
            if e.record.module = r.module ∧ e.record.code = r.code then ⟨r, true⟩ else e })
    ∧ ((∀ e ∈ ftu.table, ¬ (e.record.module = r.module ∧ e.record.code = r.code)) →
      (ftu.table.length < 32 → ftu.merge restrictive r = { ftu with table := ftu.table ++ [⟨r, true⟩] })
      ∧ ∀ (n : Nat) (e : FaultEntry), 32 ≤ ftu.table.length →
          evictionCandidate restrictive ftu.table = some (n, e) →
          (r.higher restrictive e.record = true →
            ftu.merge restrictive r = { ftu with table := ftu.table.eraseIdx n ++ [⟨r, true⟩] })
          ∧ (r.higher restrictive e.record = false →
            ftu.merge restrictive r =
              { ftu with
                overflow := if ftu.overflow < 255 then ftu.overflow + 1 else ftu.overflow,
                blockingDropped := ftu.blockingDropped || r.blocking restrictive,
                droppedInSequence := ftu.droppedInSequence || r.blocking restrictive }))

/-- The rank, the order and the candidate of eviction (R54). -/
def Obligations.EvictionCandidateIsTheLowest : Prop :=
  (∀ (restrictive : BitVec 7) (r : FaultRecord),
    (r.blocking restrictive = true → r.rank restrictive = 2)
    ∧ (r.blocking restrictive = false → r.active = true → r.rank restrictive = 1)
    ∧ (r.blocking restrictive = false → r.active = false → r.rank restrictive = 0))
  ∧ (∀ (restrictive : BitVec 7) (a b : FaultRecord),
    a.higher restrictive b = true ↔
      b.rank restrictive < a.rank restrictive
        ∨ (a.rank restrictive = b.rank restrictive ∧ b.severity < a.severity))
  ∧ ∀ (restrictive : BitVec 7) (table : List FaultEntry), table ≠ [] →
    ∃ n e, evictionCandidate restrictive table = some (n, e) ∧ table[n]? = some e
      ∧ (∀ f ∈ table, e.record.rank restrictive ≤ f.record.rank restrictive)
      ∧ (∀ f ∈ table, f.record.rank restrictive = e.record.rank restrictive →
          e.record.severity ≤ f.record.severity)
      ∧ ∀ (m : Nat) (f : FaultEntry), m < n → table[m]? = some f →
          ¬ (f.record.rank restrictive = e.record.rank restrictive ∧ f.record.severity = e.record.severity)

/-- Blocking (R56), the heat lockout signal (R57), the corroboration set (R58), and the blocks FAULT_STOP and
FAULT_PENDING, which stand in COUPLING..CLEARED alone (R59, R60). -/
def Obligations.FaultTableHandsOnItsConditions : Prop :=
  (∀ (restrictive : BitVec 7) (r : FaultRecord),
    r.blocking restrictive = true ↔
      r.active = true ∧ (r.severity = 3 ∨ (r.severity = 2 ∧ restrictive.getLsbD r.cls.code = true)))
  ∧ (∀ d : Device, d.faultStops = true ↔
      (∃ e ∈ d.ftu.table, e.record.blocking d.conf.restrictive = true) ∨ d.ftu.blockingDropped = true)
  ∧ (∀ ftu : Ftu, ftu.heatLockout = true ↔
      ∃ e ∈ ftu.table, e.record.active = true ∧ e.record.cls = .heater ∧ 2 ≤ e.record.severity)
  ∧ (∀ (ftu : Ftu) (n : Nat), ftu.corroborates n = true ↔
      ∃ e ∈ ftu.table, e.record.active = true ∧ e.record.cls = .lighting ∧ e.record.hint = some n)
  ∧ ∀ d : Device,
    (d.evalBlocks.faultStop = true ↔
      (d.cu.phase ≠ .vacant ∧ d.cu.phase ≠ .departing)
      ∧ ((∃ e ∈ d.ftu.table, e.record.blocking d.conf.restrictive = true) ∨ d.ftu.blockingDropped = true))
    ∧ (d.evalBlocks.faultPending = true ↔
      (d.cu.phase ≠ .vacant ∧ d.cu.phase ≠ .departing) ∧ d.ftu.ageTimer = none)

/-! ### The lamp check -/

/-- The judgement of a measurement in the order of R66, with the Vf and n it is made with. -/
def Obligations.JudgementFollowsTheOrder : Prop :=
  (∀ (d : Device) (id : CoachIdentity) (num millivolts milliamps supply : Nat), 1 ≤ num → num ≤ 16 →
    d.identity = some id →
    d.judge num millivolts milliamps supply =
      if supply < 18000 then .unjudged
      else if milliamps < 5 then .opened
      else if millivolts < id.vf * 50 then .short
      else if 2 ≤ (id.entry num).leds ∧ millivolts < (2 * (id.entry num).leds - 1) * id.vf * 50 then .partly
      else .pass)
  ∧ ∀ (d : Device) (num millivolts milliamps supply : Nat), 17 ≤ num → num ≤ 19 →
    d.judge num millivolts milliamps supply =
      if milliamps < 5 then .opened
      else if millivolts < d.conf.signalVf * 50 then .short
      else if 2 ≤ d.conf.signalLeds ∧ millivolts < (2 * d.conf.signalLeds - 1) * d.conf.signalVf * 50 then .partly
      else .pass

/-- What a judgement makes of the channel's record: retries to 6 and the marks confirmed and final on a failure,
nothing but status and values on UNJUDGED, all three back on PASS (R67, R68). And the blocks that follow the records: a
fitted coach channel of category MANDATORY is INITIAL or UNJUDGED, or the full-pass age timer is stopped (LAMP_PENDING,
R79); such a channel has failed and is not masked (LAMP_FAIL, R80), both in COUPLING..CLEARED alone; RED or GREEN has
failed (SIGNAL_FAIL, R81), in every phase. -/
def Obligations.RecordsFollowTheJudgement : Prop :=
  (∀ (c : Channel) (status : LampStatus) (millivolts milliamps : Nat),
    (c.judged status millivolts milliamps).status =
        (if status.failed = true ∨ status = .unjudged then status else .pass)
    ∧ (c.judged status millivolts milliamps).lastV = millivolts
    ∧ (c.judged status millivolts milliamps).lastI = milliamps
    ∧ (c.judged status millivolts milliamps).num = c.num
    ∧ (c.judged status millivolts milliamps).masked = c.masked
    ∧ (c.judged status millivolts milliamps).coachReported = c.coachReported
    ∧ ((status = .opened ∨ status = .short ∨ status = .partly) → c.retries ≤ 6 →
        (c.judged status millivolts milliamps).retries = min 6 (c.retries + 1)
        ∧ (c.judged status millivolts milliamps).confirmed = (c.confirmed || c.coachReported)
        ∧ (c.judged status millivolts milliamps).isFinal
            = (c.isFinal || c.coachReported || decide (5 ≤ c.retries)))
    ∧ (status = .unjudged →
        (c.judged status millivolts milliamps).retries = c.retries
        ∧ (c.judged status millivolts milliamps).confirmed = c.confirmed
        ∧ (c.judged status millivolts milliamps).isFinal = c.isFinal)
    ∧ (status = .pass →
        (c.judged status millivolts milliamps).retries = 0
        ∧ (c.judged status millivolts milliamps).confirmed = false
        ∧ (c.judged status millivolts milliamps).isFinal = false))
  ∧ ∀ d : Device,
    (d.evalBlocks.lampPending = true ↔
      (d.cu.phase ≠ .vacant ∧ d.cu.phase ≠ .departing)
      ∧ ((∃ id, d.identity = some id ∧ ∃ c ∈ d.ltu.channels, c.num ≤ 16 ∧ (id.entry c.num).mandatory = true
            ∧ (c.status = .initial ∨ c.status = .unjudged))
        ∨ d.ltu.ageTimer = none))
    ∧ (d.evalBlocks.lampFail = true ↔
      (d.cu.phase ≠ .vacant ∧ d.cu.phase ≠ .departing)
      ∧ ∃ id, d.identity = some id ∧ ∃ c ∈ d.ltu.channels, c.num ≤ 16 ∧ (id.entry c.num).mandatory = true
          ∧ (c.status = .opened ∨ c.status = .short ∨ c.status = .partly) ∧ c.masked = false)
    ∧ (d.evalBlocks.signalFail = true ↔
      ∃ c ∈ d.ltu.channels, (c.num = 17 ∨ c.num = 19)
        ∧ (c.status = .opened ∨ c.status = .short ∨ c.status = .partly))

/-- MEASUREMENT_END: under a stop the values are discarded and the pass ends uncompleted, its window released where no
pass with coach channels follows (R76, R78). Otherwise the channel takes the judgement and the values, which is a change
of LAMP content where its status or a flag changes (R13), no other channel does, the retest timer starts where it does not
run, and SIGNAL_RED_FAIL is latched by a failure of channel 17 (R18, R66, R67, R68, R71); the next channel of the pass is
measured without a gap, or the pass ends with its last, a full pass over coach channels with its age timer restarted at
15 min (R72, R74). Clock and deadlines: log entry 2. The values stand as sampled (log entry 19). The moment of the end is
kept for a kind that becomes pending at it (R70; log entry 36). -/
def Obligations.MeasurementEndsAreEntered : Prop :=
  (∀ (s : State) (num t0 millivolts milliamps supply : Nat), s.dev.ltu.measuring = some num →
    s.dev.ltu.measureTimer = some t0 → s.dev.ltu.stop = true →
    CompletesWith (.measurementEnd millivolts milliamps supply) s
      { s.dev with
        clock := max s.dev.clock t0,
        ltu := { s.dev.ltu with
          pass := none, measuring := none, measureTimer := none, stop := false,
          endedAt := some (max s.dev.clock t0) } }
      fun t => s.dev.evaluated → s.dev.phaseSettled →
        t.ltu.stop = false ∧ t.ltu.ageTimer = s.dev.ltu.ageTimer ∧ t.ltu.retestTimer = s.dev.ltu.retestTimer
        ∧ t.ltu.channels.map (fun c => (c.num, c.status, c.lastV, c.lastI))
            = s.dev.ltu.channels.map (fun c => (c.num, c.status, c.lastV, c.lastI))
        ∧ ((∀ c ∈ s.dev.ltu.channels, c.joins s.dev.ftu = false) → s.dev.ltu.pendingRetest = false →
            s.dev.ltu.pendingSignal = false → s.dev.ltu.pendingFull = false →
            t.ltu.pass = none ∧ t.ltu.measuring = none ∧ t.ltu.window = .none
            ∧ (s.dev.ltu.window ≠ .none → t.hcu.window = .none)))
  ∧ (∀ (s : State) (num t0 millivolts milliamps supply : Nat) (pass : Pass) (status : LampStatus)
      (channels : List Channel) (entered : Device),
    s.dev.ltu.measuring = some num → s.dev.ltu.measureTimer = some t0 → s.dev.ltu.stop = false →
    s.dev.ltu.pass = some pass → status = s.dev.judge num millivolts milliamps supply →
    channels =
      s.dev.ltu.channels.map (fun c => if c.num = num then c.judged status millivolts milliamps else c) →
    entered =
      { s.dev with
        clock := max s.dev.clock t0,
        sc := { s.dev.sc with
          alarms := { s.dev.sc.alarms with
            signalRedFail := s.dev.sc.alarms.signalRedFail || (decide (num = 17) && status.failed) },
          lamp :=
            if channels.map (fun c => (c.status, c.confirmed, c.isFinal))
                = s.dev.ltu.channels.map (fun c => (c.status, c.confirmed, c.isFinal)) then s.dev.sc.lamp
            else s.dev.sc.lamp.touch },
        ltu := { s.dev.ltu with
          channels := channels,
          retestTimer :=
            if s.dev.ltu.retestTimer = none ∧ status ≠ .pass then some (max s.dev.clock t0 + 5000000)
            else s.dev.ltu.retestTimer } } →
    (∀ (next : Nat) (rest : List Nat), pass.remaining.tail = next :: rest →
      Completes (.measurementEnd millivolts milliamps supply) s
        { entered with
          ltu := { entered.ltu with
            pass := some { pass with remaining := next :: rest }, measuring := some next,
            measureTimer := some (max s.dev.clock t0 + 40000) } })
    ∧ (pass.remaining.tail = [] →
      Completes (.measurementEnd millivolts milliamps supply) s
        { entered with
          ltu := { entered.ltu with
            pass := none, measuring := none, measureTimer := none, endedAt := some (max s.dev.clock t0),
            ageTimer :=
              if pass.kind = .full ∧ hasCoach pass.channels = true then some (max s.dev.clock t0 + 900000000)
              else s.dev.ltu.ageTimer } }))
  ∧ ∀ (s : State) (num t0 millivolts milliamps supply : Nat), s.dev.ltu.measuring = some num →
    s.dev.ltu.measureTimer = some t0 → s.dev.ltu.stop = false → s.dev.coupleNow = false →
    ∃ t, exec (.measurementEnd millivolts milliamps supply) s = .next t ∧ t.pending = s.pending
      ∧ t.dev.clock = max s.dev.clock t0
      ∧ t.dev.ltu.channels.map (fun c => (c.num, c.status, c.lastV, c.lastI, c.masked))
          = s.dev.ltu.channels.map (fun c =>
              if c.num = num then
                (c.num, s.dev.judge num millivolts milliamps supply, millivolts, milliamps, c.masked)
              else (c.num, c.status, c.lastV, c.lastI, c.masked))
      ∧ t.dev.ltu.retestTimer =
          (if s.dev.ltu.retestTimer = none ∧ s.dev.judge num millivolts milliamps supply ≠ .pass then
            some (max s.dev.clock t0 + 5000000)
          else s.dev.ltu.retestTimer)
      ∧ t.dev.sc.alarms =
          { s.dev.sc.alarms with
            signalRedFail := s.dev.sc.alarms.signalRedFail
              || (decide (num = 17) && (s.dev.judge num millivolts milliamps supply).failed) }
      ∧ t.dev.ltu.signalTimer = s.dev.ltu.signalTimer
      ∧ t.dev.identity = s.dev.identity ∧ t.dev.cu.plan = s.dev.cu.plan ∧ t.dev.sc.mode = s.dev.sc.mode
      ∧ t.dev.hcu.energy = s.dev.hcu.energy ∧ t.dev.lu.peers = s.dev.lu.peers
      ∧ t.dev.ftu.table.map FaultEntry.record = s.dev.ftu.table.map FaultEntry.record

/-- The retest, full pass and signal pass timers make their passes pending, the signal pass in RUN and ISOLATED alone
with the next period 60 s after this one; the age timer of the full pass runs out (R71, R72, R73, R79). With a pass in
flight the kind waits, but not at the moment at which a pass has ended: a retest, and a signal pass beside no retest, then
begins at that moment, and the kind that was begun is pending again (R70, R83; what of it is taken back is log entry
36). In a free unit the kind is served in the order RETEST, SIGNAL, FULL over the channels of R71 to R73 in ascending
order, a pass without coach channels measuring at once (R70, R74, R76). A channel follows the corroboration set
(R69). Leaving PREPARING..CLEARED by an unplug stops the full pass timer, removes a pending full pass and the coach's
retest requests, and stops a full or retest pass with coach channels at the end of its measurement, or at once where it
waits for the window (R76, R77, R78). Clock and deadlines: log entry 2. A measurement begun at the very moment of the stop
is log entry 20; that a full pass over no channel restarts its timer too is the model's choice, log entry 14. -/
def Obligations.LampTimersMakePassesPending : Prop :=
  (∀ (s : State) (t0 : Nat), s.dev.ltu.retestTimer = some t0 →
    CompletesWith .retestTimerExpiry s
      { s.dev with
        clock := max s.dev.clock t0, ltu := { s.dev.ltu with retestTimer := none, pendingRetest := true } }
      fun t => s.dev.evaluated → s.dev.phaseSettled → s.dev.ltu.stop = false →
        (∀ c ∈ s.dev.ltu.channels, c.corroborated s.dev.ftu = c) →
        t.ltu.retestTimer = none
        ∧ (s.dev.ltu.pass.isSome = true → s.dev.ltu.endedAt ≠ some (max s.dev.clock t0) →
            t.ltu.pass = s.dev.ltu.pass ∧ t.ltu.pendingRetest = true)
        ∧ (∀ pass set, s.dev.ltu.pass = some pass → s.dev.ltu.endedAt = some (max s.dev.clock t0) →
            (s.dev.unbegin pass).passSet .retest = set → set ≠ [] →
            t.ltu.pass = some ⟨.retest, set, set⟩ ∧ t.ltu.pendingRetest = false
            ∧ (pass.kind = .signal → t.ltu.pendingSignal = true) ∧ (pass.kind = .full → s.dev.cu.phase.prepared = true → t.ltu.pendingFull = true))
        ∧ (s.dev.ltu.pass = none → t.ltu.pendingRetest = false ∧ t.ltu.requests = [])
        ∧ (s.dev.ltu.pass = none → s.dev.passSet .retest ≠ [] →
            t.ltu.pass = some ⟨.retest, s.dev.passSet .retest, s.dev.passSet .retest⟩))
  ∧ (∀ (s : State) (t0 : Nat), s.dev.ltu.fullTimer = some t0 →
    CompletesWith .fullPassTimerExpiry s
      { s.dev with
        clock := max s.dev.clock t0, ltu := { s.dev.ltu with fullTimer := none, pendingFull := true } }
      fun t => s.dev.evaluated → s.dev.phaseSettled → s.dev.ltu.stop = false →
        (∀ c ∈ s.dev.ltu.channels, c.corroborated s.dev.ftu = c) →
        (s.dev.ltu.pass.isSome = true → s.dev.ltu.endedAt ≠ some (max s.dev.clock t0) →
          t.ltu.pass = s.dev.ltu.pass ∧ t.ltu.pendingFull = true ∧ t.ltu.fullTimer = none)
        ∧ (s.dev.ltu.pass = none →
            (s.dev.ltu.pendingRetest = false ∨ s.dev.passSet .retest = []) →
            (s.dev.ltu.pendingSignal = false ∨ s.dev.passSet .signal = []) →
            t.ltu.pendingFull = false ∧ t.ltu.fullTimer = some (max s.dev.clock t0 + 600000000)))
  ∧ (∀ (s : State) (t0 : Nat), s.dev.ltu.signalTimer = some t0 →
    CompletesWith .signalPassTimer s
      { s.dev with
        clock := max s.dev.clock t0,
        ltu := { s.dev.ltu with
          signalTimer := some (t0 + 60000000),
          pendingSignal := s.dev.ltu.pendingSignal || s.dev.sc.mode.heats } }
      fun t => s.dev.evaluated → s.dev.phaseSettled → s.dev.ltu.stop = false → s.dev.sc.mode.heats = true →
        (∀ c ∈ s.dev.ltu.channels, c.corroborated s.dev.ftu = c) →
        t.ltu.signalTimer = some (t0 + 60000000)
        ∧ (s.dev.ltu.pass.isSome = true → s.dev.ltu.endedAt ≠ some (max s.dev.clock t0) →
            t.ltu.pass = s.dev.ltu.pass ∧ t.ltu.pendingSignal = true)
        ∧ (∀ pass set, s.dev.ltu.pass = some pass → pass.kind ≠ .retest →
            s.dev.ltu.endedAt = some (max s.dev.clock t0) → s.dev.ltu.pendingRetest = false →
            (s.dev.unbegin pass).passSet .signal = set → set ≠ [] →
            t.ltu.pass = some ⟨.signal, set, set⟩ ∧ t.ltu.pendingSignal = false
            ∧ (pass.kind = .full → s.dev.cu.phase.prepared = true → t.ltu.pendingFull = true))
        ∧ (s.dev.ltu.pass = none → s.dev.ltu.pendingRetest = false → s.dev.passSet .signal ≠ [] →
            t.ltu.pass = some ⟨.signal, s.dev.passSet .signal, s.dev.passSet .signal⟩
            ∧ t.ltu.pendingSignal = false ∧ t.ltu.measuring = (s.dev.passSet .signal).head?
            ∧ t.ltu.measureTimer = some (max s.dev.clock t0 + 40000) ∧ t.ltu.window = .none))
  ∧ (∀ (s : State) (t0 : Nat), s.dev.ltu.ageTimer = some t0 →
    ∃ t, exec .fullPassAgeExpiry s = .next t ∧ t.pending = s.pending
      ∧ Followed { s.dev with clock := max s.dev.clock t0, ltu := { s.dev.ltu with ageTimer := none } } t.dev
      ∧ t.dev.cu.blocks.lampPending = t.dev.cu.phase.withCoach)
  ∧ (∀ (d : Device) (n : Nat),
    (n ∈ d.passSet .retest ↔
      ∃ c ∈ d.ltu.channels, c.num = n ∧ c.status ≠ .off
        ∧ ((16 < n ∧ c.status.failed = true ∧ c.isFinal = false)
          ∨ (n ≤ 16 ∧ d.cu.phase.prepared = true
            ∧ ((c.status.failed = true ∧ c.isFinal = false) ∨ c.status = .unjudged ∨ n ∈ d.ltu.requests))))
    ∧ (n ∈ d.passSet .signal ↔ ∃ c ∈ d.ltu.channels, c.num = n ∧ c.status ≠ .off ∧ 16 < n)
    ∧ (n ∈ d.passSet .full ↔
      ∃ c ∈ d.ltu.channels, c.num = n ∧ c.status ≠ .off ∧ (16 < n ∨ d.cu.phase.prepared = true))
    ∧ (d.ltu.tableOk → ∀ kind, (d.passSet kind).Pairwise (· < ·)))
  ∧ (∀ (ftu : Ftu) (c : Channel),
    (c.joins ftu = true ↔
      c.num ≤ 16 ∧ c.status ≠ .off ∧ ftu.corroborates c.num = true ∧ c.coachReported = false)
    ∧ (c.joins ftu = true → c.corroborated ftu = { c with coachReported := true })
    ∧ (c.coachReported = true → ftu.corroborates c.num = false →
        c.corroborated ftu =
          { c with
            coachReported := false, confirmed := false, isFinal := c.isFinal && decide (c.retries = 6) })
    ∧ (c.joins ftu = false → (c.coachReported = false ∨ ftu.corroborates c.num = true) → c.corroborated ftu = c))
  ∧ ∀ (s : State) (t0 : Nat), s.dev.clc.plugFilter = some t0 → s.dev.clc.plug = true → s.dev.pins.plug = false →
    s.dev.cu.phase.prepared = true →
    ∃ t, exec .unplug s = .next t ∧ t.dev.ltu.fullTimer = none ∧ t.dev.ltu.pendingFull = false
      ∧ (s.dev.cu.phase ≠ .cleared ∨ (∀ c ∈ s.dev.ltu.channels, c.joins s.dev.ftu = false) →
          ∀ n ∈ t.dev.ltu.requests, 16 < n)
      ∧ (∀ pass, s.dev.ltu.pass = some pass → s.dev.ltu.stop = false →
          (pass.kind = .signal ∨ hasCoach pass.channels = false → s.dev.ltu.endedAt ≠ some (max s.dev.clock t0) →
            t.dev.ltu.pass = some pass ∧ t.dev.ltu.stop = false ∧ t.dev.ltu.measuring = s.dev.ltu.measuring)
          ∧ (pass.kind ≠ .signal → hasCoach pass.channels = true → s.dev.ltu.measuring.isSome = true →
              s.dev.ltu.measureTimer ≠ some (max s.dev.clock t0 + 40000) →
              s.dev.ltu.endedAt ≠ some (max s.dev.clock t0) →
              t.dev.ltu.pass = some pass ∧ t.dev.ltu.stop = true ∧ t.dev.ltu.measuring = s.dev.ltu.measuring)
          ∧ (pass.kind ≠ .signal → hasCoach pass.channels = true → s.dev.ltu.measuring = none →
              s.dev.ltu.window = .waiting → s.dev.ltu.pendingRetest = false →
              s.dev.ltu.pendingSignal = false →
              (∀ c ∈ s.dev.ltu.channels, c.joins s.dev.ftu = false) →
              t.dev.ltu.pass = none ∧ t.dev.ltu.stop = false ∧ t.dev.ltu.measuring = none
              ∧ t.dev.ltu.window = .none ∧ t.dev.hcu.window = .none))

/-- A pass with coach channels waits for the window: at the expiry of the full pass timer, with the unit free and no
other pass pending, measuring begins at once where the stage is within the window stage already; where the stage
stands above it, it is lowered to it and 100 ms of settling begin, at whose end the waiting pass measures its first
channel for 40 ms, no pass having ended at that very moment (R65, R72, R75, R110). The target is worked out again at the
window request (R102). Clock and deadlines: log entry 2. -/
def Obligations.CoachPassesWaitForTheWindow : Prop :=
  (∀ (s : State) (t0 : Nat), s.dev.ltu.fullTimer = some t0 → s.dev.evaluated → s.dev.phaseSettled →
    s.dev.cu.phase.prepared = true → s.dev.sc.mode.heats = true → s.dev.ltu.pass = none →
    s.dev.ltu.measuring = none → s.dev.ltu.window = .none → s.dev.hcu.window = .none →
    s.dev.ltu.pendingRetest = false → s.dev.ltu.pendingSignal = false →
    (∀ c ∈ s.dev.ltu.channels, c.joins s.dev.ftu = false) →
    (∃ c ∈ s.dev.ltu.channels, c.num ≤ 16 ∧ c.status ≠ .off) →
    ∃ t, exec .fullPassTimerExpiry s = .next t
      ∧ t.dev.hcu.stage ≤ t.dev.windowStage ∧ t.dev.ltu.pass.isSome = true ∧ t.dev.ltu.pendingFull = false
      ∧ t.dev.hcu.target = t.dev.targetStage
      ∧ t.dev.ltu.fullTimer = some (max s.dev.clock t0 + 600000000)
      ∧ (s.dev.hcu.stage ≤ s.dev.windowStage →
          t.dev.hcu.window = .effective ∧ t.dev.ltu.window = .held ∧ t.dev.ltu.measuring.isSome = true)
      ∧ (s.dev.windowStage < s.dev.hcu.stage → s.dev.hcu.stage ≤ s.dev.hcu.target →
          s.dev.hcu.stage ≤ s.dev.targetStage → s.dev.claimForced = false →
          t.dev.hcu.window = .settling ∧ t.dev.hcu.settling = some (max s.dev.clock t0 + 100000)
          ∧ t.dev.ltu.window = .waiting ∧ t.dev.ltu.measuring = none))
  ∧ (∀ (s : State) (t0 n : Nat) (pass : Pass) (rest : List Nat), s.dev.hcu.settling = some t0 →
    s.dev.evaluated → s.dev.phaseSettled → s.dev.ltu.stop = false → s.dev.ltu.window = .waiting →
    s.dev.ltu.pass = some pass → pass.remaining = n :: rest → s.dev.ltu.endedAt ≠ some (max s.dev.clock t0) →
    ∃ t, exec .windowSettlingExpiry s = .next t ∧ t.pending = s.pending ∧ t.dev.clock = max s.dev.clock t0
      ∧ t.dev.hcu.window = .effective ∧ t.dev.hcu.settling = none ∧ t.dev.ltu.window = .held
      ∧ t.dev.ltu.measuring = some n ∧ t.dev.ltu.measureTimer = some (max s.dev.clock t0 + 40000)
      ∧ t.dev.ltu.pass = some pass)
  ∧ ∀ (s : State) (t0 : Nat), s.dev.hcu.settling = some t0 → s.dev.ltu.window ≠ .waiting →
    Completes .windowSettlingExpiry s
      { s.dev with
        clock := max s.dev.clock t0, hcu := { s.dev.hcu with window := .effective, settling := none } }

/-! ### Demand, grant, stage -/

/-- At a tick at which the HP runs with a usable cabin temperature, ΔT is Tt less Tc and Ew the ceiling of C × max(ΔT,
0) / 2 (R87), and Pm the ceiling of L × max(Tt − To, 0) / 2 with To the To in use (R88), in the ranges the rules give.
-/
def Obligations.EnergyAndHoldingPower : Prop :=
  ∀ (d : Device) (id : CoachIdentity) (plan : Plan) (tc : Int), d.hpRuns = true → d.cu.plan = some plan →
    d.identity = some id → d.clc.usableTc = some tc →
    100 ≤ id.capacity → id.capacity ≤ 2500 → 20 ≤ id.loss → id.loss ≤ 1000 → 20 ≤ plan.target → plan.target ≤ 48 →
    -80 ≤ tc → tc ≤ 100 → -80 ≤ d.hp.toInUse → d.hp.toInUse ≤ 100 →
    d.hpValues.deltaT = plan.target - tc ∧ -80 ≤ d.hpValues.deltaT ∧ d.hpValues.deltaT ≤ 128
    ∧ (id.capacity : Int) * max d.hpValues.deltaT 0 ≤ 2 * d.hpValues.ew
    ∧ 2 * (d.hpValues.ew : Int) < id.capacity * max d.hpValues.deltaT 0 + 2
    ∧ d.hpValues.ew ≤ 160000
    ∧ (d.hpValues.deltaT ≤ 0 → d.hpValues.ew = 0 ∧ d.hpValues.p = d.hpValues.pm)
    ∧ (id.loss : Int) * max (plan.target - d.hp.toInUse) 0 ≤ 2 * d.hpValues.pm
    ∧ 2 * (d.hpValues.pm : Int) < id.loss * max (plan.target - d.hp.toInUse) 0 + 2
    ∧ d.hpValues.pm ≤ 64000
    ∧ (plan.target ≤ d.hp.toInUse → d.hpValues.pm = 0)

/-- The rest of the computation of a tick: Pw and P (R89), Q and SHORT (R90), tf and UNREACHABLE (R91), the slack
(R92), and the claim 0 under a lockout (R93). The HP runs in PREPARING..CLEARED with a plan stored and MATCHED, in RUN
and ISOLATED (R84). A tick at which the HP does not run leaves its idle values (R84); one
without a usable cabin temperature sets STALE and asks for nothing, Pm and P = Pm apart (R93). -/
def Obligations.ClaimAndSlack : Prop :=
  (∀ (d : Device) (id : CoachIdentity) (plan : Plan) (tc : Int) (ew pm qraw pfull : Nat), d.hpRuns = true →
    d.cu.plan = some plan → d.identity = some id → d.clc.usableTc = some tc → plan.minutes ≤ 1080 →
    ew = d.hpValues.ew → pm = d.hpValues.pm → qraw = (d.hpValues.p + 249) / 250 → pfull = id.rating * 250 →
    d.hpValues.pw = (ew * 1000 + 60 * max plan.minutes 1 - 1) / (60 * max plan.minutes 1)
    ∧ d.hpValues.p = d.hpValues.pw + pm
    ∧ (d.hcu.faultLockout = false → d.hcu.overLockout = false → d.hpValues.q = min qraw id.rating)
    ∧ ((d.hcu.faultLockout = true ∨ d.hcu.overLockout = true) → d.hpValues.q = 0)
    ∧ (d.hpValues.short = true ↔ id.rating < qraw)
    ∧ (d.hpValues.unreachable = true ↔ 0 < ew ∧ pfull ≤ pm)
    ∧ (ew = 0 → d.hpValues.tf = 0)
    ∧ (0 < ew → pfull ≤ pm → d.hpValues.tf = 1080)
    ∧ (0 < ew → pm < pfull →
        d.hpValues.tf = min 1080 ((ew * 1000 + (pfull - pm) * 60 - 1) / ((pfull - pm) * 60)))
    ∧ (d.hpValues.unreachable = true → d.hpValues.slack = 1080)
    ∧ (d.hpValues.unreachable = false → d.hpValues.slack = (plan.minutes : Int) - d.hpValues.tf)
    ∧ -1080 ≤ d.hpValues.slack ∧ d.hpValues.slack ≤ 1080
    ∧ d.hpValues.stale = false)
  ∧ (∀ d : Device, d.hpRuns = false →
    d.hpValues =
      { d.hp with
        q := 0, slack := 1080, deltaT := 0, ew := 0, pm := 0, pw := 0, p := 0, tf := 0, short := false,
        unreachable := false, stale := false })
  ∧ (∀ (d : Device) (id : CoachIdentity) (plan : Plan), d.hpRuns = true → d.cu.plan = some plan →
    d.identity = some id → (d.clc.tcState = .none ∨ d.clc.tcState = .stale) →
    d.hpValues =
      { d.hp with
        q := 0, slack := 1080, deltaT := 0, ew := 0, pm := (id.loss * (plan.target - d.hp.toInUse).toNat + 1) / 2,
        pw := 0, p := (id.loss * (plan.target - d.hp.toInUse).toNat + 1) / 2, tf := 0, short := false,
        unreachable := false, stale := true })
  ∧ ∀ d : Device,
    (d.hpRuns = true ↔
      (d.cu.phase = .preparing ∨ d.cu.phase = .ready ∨ d.cu.phase = .clearing ∨ d.cu.phase = .cleared)
      ∧ d.cu.matchState = .matched ∧ (d.sc.mode = .run ∨ d.sc.mode = .isolated))
    ∧ (d.evaluated → d.hpRuns = true → d.cu.plan.isSome = true ∧ d.identity.isSome = true)

/-- The ahead entries and A, the sum of their claims (R100), and the grant of a tick from Q, B − A and F (R101). -/
def Obligations.GrantFollowsTheRanking : Prop :=
  (∀ (e : PeerEntry) (slack : Int) (station : Nat),
    e.ahead slack station = true ↔
      (e.mode = .run ∨ e.mode = .isolated) ∧ (e.slack < slack ∨ (e.slack = slack ∧ e.station < station)))
  ∧ (∀ d : Device,
    (d.sc.mode = .run → d.sc.alarms.shedLineFault = false →
      d.grantNow = min d.hp.q (d.conf.budget - d.claimsAhead))
    ∧ (d.sc.mode = .isolated → d.grantNow = min d.hp.q d.conf.fairShare)
    ∧ (d.sc.mode = .run → d.sc.alarms.shedLineFault = true → d.grantNow = min d.hp.q d.conf.fairShare)
    ∧ (d.sc.mode = .listen ∨ d.sc.mode = .conflict → d.grantNow = 0)
    ∧ d.grantNow ≤ d.hp.q)
  ∧ (∀ d : Device,
    d.claimsAhead =
      (d.lu.peers.map fun e => if e.ahead d.hp.slack d.conf.station = true then e.q else 0).sum)
  ∧ ∀ d : Device, (∀ e ∈ d.lu.peers, e.q ≤ 160) → d.lu.peers.length ≤ 62 → d.claimsAhead ≤ 9920

/-- The target stage is 0 under the caps that say so and without an identity, and elsewhere the largest stage that meets
the grant, the rejoin cap where one is held and the window stage where a window is in force (R102); the window stage is
the largest within the allowance (R103); and what a tick's choice makes of stage and pending raise (R105). -/
def Obligations.TargetStageAndChoice : Prop :=
  (∀ (d : Device) (id : CoachIdentity), d.identity = some id → 0 < id.rating →
    id.rating * d.targetStage ≤ d.hcu.grant * id.stages
    ∧ (d.hcu.asserted = true ∨ d.hcu.faultLockout = true ∨ d.hcu.overLockout = true ∨ d.sc.mode.heats = false
        ∨ d.cu.phase.prepared = false ∨ d.cu.matchState ≠ .matched → d.targetStage = 0)
    ∧ (∀ cap, d.hcu.rejoinCap = some cap → d.targetStage ≤ cap)
    ∧ (d.hcu.window ≠ .none → d.targetStage ≤ d.windowStage)
    ∧ (d.hcu.asserted = false → d.hcu.faultLockout = false → d.hcu.overLockout = false → d.sc.mode.heats = true →
        d.cu.phase.prepared = true → d.cu.matchState = .matched → d.hcu.rejoinCap = none → d.hcu.window = .none →
        d.hcu.grant * id.stages < id.rating * (d.targetStage + 1))
    ∧ (d.hcu.asserted = false → d.hcu.faultLockout = false → d.hcu.overLockout = false → d.sc.mode.heats = true →
        d.cu.phase.prepared = true → d.cu.matchState = .matched →
        ∀ n, n ≤ d.targetStage ↔
          id.rating * n ≤ d.hcu.grant * id.stages ∧ (∀ cap, d.hcu.rejoinCap = some cap → n ≤ cap)
            ∧ (d.hcu.window ≠ .none → n ≤ d.windowStage)))
  ∧ (∀ d : Device, d.identity = none → d.targetStage = 0)
  ∧ (∀ (d : Device) (id : CoachIdentity), d.identity = some id → 0 < id.stages →
    d.windowStage ≤ id.stages
    ∧ id.rating * 250 * d.windowStage / id.stages ≤ d.conf.windowAllowance * 250
    ∧ ∀ s, d.windowStage < s → s ≤ id.stages →
        d.conf.windowAllowance * 250 < id.rating * 250 * s / id.stages)
  ∧ ∀ (hcu : Hcu) (target : Nat),
    (target ≤ hcu.stage → hcu.choose target = { hcu with target := target, stage := target, raise := none })
    ∧ (hcu.stage < target → hcu.holdOff = none → hcu.asserted = false →
        hcu.choose target = { hcu with target := target, raise := some (min target (hcu.stage + 1)) })
    ∧ (hcu.stage < target → (hcu.holdOff.isSome = true ∨ hcu.asserted = true) →
        hcu.choose target = { hcu with target := target, raise := none })

/-! ### Shed Line and current monitor -/

/-- The shed sense: ASSERTED takes the stage to 0 at once and sets SHED (R108); RELEASED starts the hold-off of 500 ms
+ 100 ms × the station number (R109), at whose end SHED clears. Clock and deadlines: log entry 2. -/
def Obligations.ShedLineStopsTheHeater : Prop :=
  (∀ (s : State) (t0 : Nat), s.dev.hcu.shedFilter = some t0 → s.dev.hcu.asserted = false →
    s.dev.pins.shedHigh = false →
    ∃ t, exec .shedAsserted s = .next t ∧ t.pending = s.pending
      ∧ Followed
          { s.dev with
            clock := max s.dev.clock t0,
            hcu := { s.dev.hcu with
              asserted := true, shedFilter := none, shedFlag := true, holdOff := none, raise := none } } t.dev
      ∧ t.dev.hcu.stage = 0 ∧ t.dev.hcu.raise = none)
  ∧ (∀ (s : State) (t0 : Nat) (conf : StationConfig), s.dev.hcu.shedFilter = some t0 → s.dev.hcu.asserted = true →
    s.dev.pins.shedHigh = true → s.dev.sc.config = some conf →
    Completes .shedReleased s
      { s.dev with
        clock := max s.dev.clock t0,
        hcu := { s.dev.hcu with
          asserted := false, shedFilter := none,
          holdOff := some (max s.dev.clock t0 + (500000 + 100000 * conf.station)) } })
  ∧ (∀ (s : State) (t0 : Nat), s.dev.hcu.shedFilter = some t0 → s.dev.hcu.asserted = true →
    s.dev.pins.shedHigh = true → s.dev.sc.config = none →
    Completes .shedReleased s
      { s.dev with
        clock := max s.dev.clock t0,
        hcu := { s.dev.hcu with asserted := false, shedFilter := none, holdOff := none, shedFlag := false } })
  ∧ ∀ (s : State) (t0 : Nat), s.dev.hcu.holdOff = some t0 →
    Completes .holdOffExpiry s
      { s.dev with
        clock := max s.dev.clock t0, hcu := { s.dev.hcu with holdOff := none, shedFlag := false } }

/-- The current monitor: a change of the draw is taken up, the timing of an overdraw begins with 1 s and that of a draw at
stage 0 with 2 s, and a draw below 5 % of Pfull ends a pull; an overdraw held for 1 s latches OVERCURRENT, sets its lockout and pulls the Shed Line; a draw at stage 0 held for 2 s latches
CONTACTOR_FAIL and pulls; a pull lasts 10 s at most, and an OVERCURRENT pull with the draw still above 5 % latches
CONTACTOR_FAIL (R112, R113, R114). Clock and deadlines: log entry 2. The monitor in a pull is log entry 10. -/
def Obligations.MonitorActsOnTheDraw : Prop :=
  (∀ (s : State) (watts : Nat),
    ∃ t, exec (.measuredPowerChange watts) s = .next t ∧ t.pending = s.pending
      ∧ Followed { s.dev with pins := { s.dev.pins with power := watts } } t.dev
      ∧ (20 * watts < t.dev.monitorFull → t.dev.hcu.pull = .none)
      ∧ (t.dev.monitorFull ≤ 20 * watts → t.dev.hcu.pull = s.dev.hcu.pull)
      ∧ t.dev.monitorOk
      ∧ (t.dev.hcu.monitor = .overTiming → s.dev.hcu.monitor ≠ .overTiming →
          t.dev.hcu.monitorTimer = some (s.dev.clock + 1000000))
      ∧ (t.dev.hcu.monitor = .stuckTiming → s.dev.hcu.monitor ≠ .stuckTiming →
          t.dev.hcu.monitorTimer = some (s.dev.clock + 2000000))
      ∧ (t.dev.hcu.monitor = .watching → s.dev.hcu.monitor ≠ .watching → t.dev.hcu.monitorTimer = none)
      ∧ (t.dev.hcu.monitor = s.dev.hcu.monitor → t.dev.hcu.monitorTimer = s.dev.hcu.monitorTimer))
  ∧ (∀ (s : State) (t0 : Nat), s.dev.hcu.monitor = .overTiming → s.dev.hcu.monitorTimer = some t0 →
    ∃ t, exec .overcurrentTimingExpiry s = .next t ∧ t.pending = s.pending
      ∧ Followed
          { s.dev with
            clock := max s.dev.clock t0,
            sc := { s.dev.sc with alarms := { s.dev.sc.alarms with overcurrent := true } },
            hcu := { s.dev.hcu with
              overLockout := true, pull := .overcurrent, pullTimer := some (max s.dev.clock t0 + 10000000),
              monitor := .watching, monitorTimer := none } } t.dev
      ∧ t.dev.hp.q = 0 ∧ t.dev.hcu.grant = 0 ∧ t.dev.hcu.stage = 0
      ∧ (t.dev.monitorFull ≤ 20 * s.dev.pins.power →
          t.dev.hcu.pull = .overcurrent ∧ t.dev.hcu.pullTimer = some (max s.dev.clock t0 + 10000000)))
  ∧ (∀ (s : State) (t0 : Nat), s.dev.hcu.monitor = .stuckTiming → s.dev.hcu.monitorTimer = some t0 →
    ∃ t, exec .stuckTimingExpiry s = .next t ∧ t.pending = s.pending
      ∧ Followed
          { s.dev with
            clock := max s.dev.clock t0,
            sc := { s.dev.sc with alarms := { s.dev.sc.alarms with contactorFail := true } },
            hcu := { s.dev.hcu with
              armed := false, pull := .contactor, pullTimer := some (max s.dev.clock t0 + 10000000),
              monitor := .watching, monitorTimer := none } } t.dev
      ∧ (t.dev.monitorFull ≤ 20 * s.dev.pins.power →
          t.dev.hcu.pull = .contactor ∧ t.dev.hcu.pullTimer = some (max s.dev.clock t0 + 10000000)))
  ∧ ∀ (s : State) (t0 : Nat) (fails : Bool), s.dev.hcu.pullTimer = some t0 →
    fails = (decide (s.dev.hcu.pull = .overcurrent) && decide (s.dev.monitorFull < 20 * s.dev.pins.power)) →
    ∃ t, exec .shedPullExpiry s = .next t ∧ t.pending = s.pending
      ∧ Followed
          { s.dev with
            clock := max s.dev.clock t0,
            sc := { s.dev.sc with
              alarms := { s.dev.sc.alarms with contactorFail := s.dev.sc.alarms.contactorFail || fails } },
            hcu := { s.dev.hcu with
              armed := s.dev.hcu.armed && !fails, pull := .none, pullTimer := none, monitor := .watching,
              monitorTimer := none } } t.dev
      ∧ t.dev.hcu.pull = .none

/-! ### Clearance -/

/-- The timers of the Clearance Unit: the presence timer ends DEPARTING (R136), the intent window ends a contest that
was not lost in CLEARED with the spacing timer restarted (R127, R130), the spacing timer ends, and a flashing aspect
toggles its lamp every 500 ms (R138). Clock and deadlines: log entry 2. That the contest key goes at the entry to CLEARED is
the model's choice, log entry 38. -/
def Obligations.ClearanceTimersMoveTheBay : Prop :=
  (∀ (s : State) (t0 : Nat), s.dev.cu.presence = some t0 → s.dev.cu.phase = .departing →
    ∃ t, exec .presenceTimerExpiry s = .next t ∧ t.pending = s.pending ∧ t.dev.clock = max s.dev.clock t0
      ∧ (¬ (s.dev.clc.plug = true ∧ s.dev.sc.mode.heats = true) →
          t.dev.cu.phase = .vacant ∧ t.dev.cu.presence = none ∧ t.dev.identity = none ∧ t.dev.ftu = Ftu.reset
          ∧ t.dev.clc.lastStatus = none ∧ t.dev.clc.tcState = .none
          ∧ t.dev.sc.heat = ⟨.off, false⟩ ∧ t.dev.sc.lamp = ⟨.off, false⟩ ∧ t.dev.sc.fault = ⟨.off, false⟩
          ∧ t.dev.hcu.energy = s.dev.hcu.energy)
      ∧ (s.dev.clc.plug = true → s.dev.sc.mode.heats = true → Couples t.dev)
      ∧ t.dev.cu.plan = s.dev.cu.plan ∧ t.dev.cu.holdLanes = s.dev.cu.holdLanes
      ∧ t.dev.sc.alarms = s.dev.sc.alarms ∧ t.dev.lu.peers = s.dev.lu.peers ∧ t.dev.pins = s.dev.pins)
  ∧ (∀ (s : State) (t0 : Nat), s.dev.cu.intentTimer = some t0 → s.dev.cu.phase = .clearing → s.dev.evaluated →
    s.dev.phaseSettled →
    ∃ t, exec .intentWindowExpiry s = .next t ∧ t.pending = s.pending ∧ t.dev.clock = max s.dev.clock t0
      ∧ t.dev.cu.phase = .cleared ∧ t.dev.cu.intent = .none ∧ t.dev.cu.intentTimer = none ∧ t.dev.cu.key = none
      ∧ t.dev.cu.spacing =
          (if s.dev.conf.spacing = 0 then none else some (max s.dev.clock t0 + s.dev.conf.spacing * 1000000))
      ∧ t.dev.cu.plan = s.dev.cu.plan ∧ t.dev.identity = s.dev.identity ∧ t.dev.sc.alarms = s.dev.sc.alarms
      ∧ t.dev.lu.peers = s.dev.lu.peers ∧ t.dev.hcu.energy = s.dev.hcu.energy)
  ∧ (∀ (s : State) (t0 : Nat), s.dev.cu.spacing = some t0 →
    CompletesWith .spacingTimerExpiry s
      { s.dev with clock := max s.dev.clock t0, cu := { s.dev.cu with spacing := none } }
      fun t => t.cu.spacing = none)
  ∧ ∀ (s : State) (t0 : Nat), s.dev.cu.flash = some t0 →
    Makes .aspectFlash s
      { s.dev with
        clock := max s.dev.clock t0,
        cu := { s.dev.cu with lit := !s.dev.cu.lit, flash := some (t0 + 500000) } }

/-! ### The Depot Line -/

/-- LINE_QUIET, LINE_START_BIT, the end of a NOTICE's hold-back, a gap and a frame found bad (R141, R142, R144, R148,
R153). Nothing else changes. Clock and deadlines: log entry 2. The quiet after a gap is log entry 23, a backoff in
slot 0 log entry 15, the quiet counted from a discard log entry 30. -/
def Obligations.LineEventsMoveTheReceiver : Prop :=
  (∀ (s : State) (t0 : Nat) (reached : Device), s.dev.sc.mode.hears = true → s.dev.lu.sending = false →
    s.dev.lu.quietTimer = some t0 → reached = { s.dev with clock := max s.dev.clock t0 } →
    Makes .lineQuiet s
      { reached with
        lu := { s.dev.lu with
          quiet := true, quietTimer := none,
          receiver := if s.dev.lu.receiver = .skipping then .idle else s.dev.lu.receiver,
          backoff :=
            if reached.readyToSend = true ∧ s.dev.lu.backoff = none then
              some (reached.clock
                + (s.dev.conf.station + 5 * (s.dev.lu.flight.map Flight.failed).getD 0) % 16 * 64)
            else s.dev.lu.backoff } })
  ∧ (∀ s : State, s.dev.sc.mode.hears = true → s.dev.lu.sending = false →
    Makes .lineStartBit s
      { s.dev with
        lu := { s.dev.lu with
          quiet := false, quietTimer := some (s.dev.clock + 240),
          backoff := if s.dev.lu.quiet = true then none else s.dev.lu.backoff,
          receiver :=
            if s.dev.lu.quiet = true ∧ s.dev.lu.receiver = .idle then .assembling else s.dev.lu.receiver } })
  ∧ (∀ (s : State) (t0 : Nat) (reached : Device), s.dev.lu.lastNotice = some t0 →
    reached = { s.dev with clock := max s.dev.clock (t0 + 250000) } →
    Makes .noticeHoldbackExpiry s
      { reached with
        lu := { s.dev.lu with
          backoff :=
            if reached.readyToSend = true ∧ s.dev.lu.quiet = true ∧ s.dev.lu.backoff = none then
              some (reached.clock
                + (s.dev.conf.station + 5 * (s.dev.lu.flight.map Flight.failed).getD 0) % 16 * 64)
            else s.dev.lu.backoff } })
  ∧ (∀ s : State, s.dev.sc.mode.hears = true → s.dev.lu.receiver = .assembling → s.dev.lu.sending = false →
    Makes .lineGapTimeout s
      { s.dev with
        lu := { s.dev.lu with
          receiver := .idle,
          stats := { s.dev.lu.stats with
            gap := if s.dev.lu.stats.gap < 65535 then s.dev.lu.stats.gap + 1 else s.dev.lu.stats.gap } } })
  ∧ ∀ (s : State) (found : FrameFault), s.dev.sc.mode.hears = true → s.dev.lu.receiver = .assembling →
    s.dev.lu.sending = false →
    Makes (.frameFormatError found) s
      { s.dev with
        lu := { s.dev.lu with
          receiver := if found = .crc ∨ found = .framing true then .idle else .skipping,
          quiet := false, quietTimer := some (s.dev.clock + 240),
          stats := { s.dev.lu.stats with
            format :=
              if s.dev.lu.stats.format < 65535 then s.dev.lu.stats.format + 1 else s.dev.lu.stats.format } } }

/-- BACKOFF_EXPIRY begins an attempt: of the frame in flight again with its bytes, else of the NOTICE that may begin
with its snapshot, the change marks cleared, else of the LIST queued first (R144, R146, R147, R148, R149). Clock and
deadlines: log entry 2. An attempt that begins while a cut-off frame is still being assembled is log entry 31. -/
def Obligations.BackoffEndsInAnAttempt : Prop :=
  ∀ (s : State) (t0 now : Nat), s.dev.sc.mode.speaks = true → s.dev.lu.quiet = true →
    s.dev.lu.backoff = some t0 → now = max s.dev.clock t0 →
    (s.dev.lu.flight.isSome = true →
      Makes .backoffExpiry s
        { s.dev with
          clock := now,
          lu := { s.dev.lu with
            sending := true, backoff := none, quiet := false, quietTimer := none, receiver := .assembling } })
    ∧ (s.dev.lu.flight = none → s.dev.lu.unbegun = true →
        (∀ last, s.dev.lu.lastNotice = some last → last + 250000 ≤ now) →
        Makes .backoffExpiry s
          { s.dev with
            clock := now,
            sc := { s.dev.sc with
              phase := { s.dev.sc.phase with mark := false }, heat := { s.dev.sc.heat with mark := false },
              lamp := { s.dev.sc.lamp with mark := false }, fault := { s.dev.sc.fault with mark := false } },
            lu := { s.dev.lu with
              flight := some ⟨.notice s.dev.snapshot,
                lineFrame 1 s.dev.conf.station 0 s.dev.noticePayload, 0⟩,
              unbegun := false, lastNotice := some now,
              sending := true, backoff := none, quiet := false, quietTimer := none, receiver := .assembling } })
    ∧ (∀ (frame : ListFrame) (rest : List ListFrame), s.dev.lu.flight = none →
        (s.dev.lu.unbegun = false ∨ ∃ last, s.dev.lu.lastNotice = some last ∧ now < last + 250000) →
        s.dev.lu.lists = frame :: rest →
        Makes .backoffExpiry s
          { s.dev with
            clock := now,
            lu := { s.dev.lu with
              flight := some ⟨.list frame, lineFrame 5 s.dev.conf.station frame.dest frame.payload, 0⟩,
              lists := rest,
              sending := true, backoff := none, quiet := false, quietTimer := none, receiver := .assembling } })

/-- COLLISION is counted and stops the own driving; below 6 failed attempts the frame stays in flight, at 6 it is
dropped and counted (R145, R146, R153). A dropped LIST frees a place for the reply in progress, which offers its next
frame (R146, R167). A dropped NOTICE that was to announce CLEARING ends the contest: the bay returns to READY with the
retry hold set, where no preparation block takes it further (R128); any other does nothing more. The 15 bit times counted
from the collision are log entry 30, the moment kept of the LIST is log entry 35, a NOTICE with a snapshot of an earlier
stay in CLEARING is log entry 37, and that the contest key goes with the contest is log entry 38. -/
def Obligations.CollisionsFailTheAttempt : Prop :=
  ∀ (s : State) (flight : Flight) (stopped dropped : Lu), s.dev.lu.sending = true →
    s.dev.lu.flight = some flight →
    stopped =
      { s.dev.lu with
        quiet := false, quietTimer := some (s.dev.clock + 240), sending := false,
        stats := { s.dev.lu.stats with
          collisions :=
            if s.dev.lu.stats.collisions < 65535 then s.dev.lu.stats.collisions + 1
            else s.dev.lu.stats.collisions } } →
    dropped =
      { stopped with
        flight := none,
        stats := { stopped.stats with
          dropped :=
            if s.dev.lu.stats.dropped < 65535 then s.dev.lu.stats.dropped + 1 else s.dev.lu.stats.dropped } } →
    (flight.failed + 1 < 6 →
      Completes .collision s
        { s.dev with lu := { stopped with flight := some { flight with failed := flight.failed + 1 } } })
    ∧ (∀ frame, 6 ≤ flight.failed + 1 → flight.content = .list frame →
        ReplyGoesOn .collision s { s.dev with lu := { dropped with lineEvent := some s.dev.clock } })
    ∧ (∀ snap, 6 ≤ flight.failed + 1 → flight.content = .notice snap →
        ¬ (snap.phase = .clearing ∧ s.dev.cu.phase = .clearing ∧ s.dev.cu.intent = .awaiting) →
        Completes .collision s { s.dev with lu := dropped })
    ∧ (∀ snap, 6 ≤ flight.failed + 1 → flight.content = .notice snap → snap.phase = .clearing →
        s.dev.cu.phase = .clearing → s.dev.cu.intent = .awaiting →
        ∃ t, exec .collision s = .next t ∧ t.pending = s.pending ∧ t.dev.clock = s.dev.clock
          ∧ t.dev.lu = { dropped with unbegun := t.dev.lu.unbegun, backoff := t.dev.lu.backoff }
          ∧ t.dev.cu.phase ≠ .clearing ∧ t.dev.cu.phase ≠ .cleared
          ∧ t.dev.cu.intent = .none ∧ t.dev.cu.intentTimer = none ∧ t.dev.cu.key = none
          ∧ (s.dev.evaluated → s.dev.cu.blocks.preparation = false → s.dev.cu.blocks.noPlan = false →
              t.dev.cu.phase = .ready ∧ t.dev.cu.retryHold = true)
          ∧ t.dev.cu.plan = s.dev.cu.plan ∧ t.dev.sc.mode = s.dev.sc.mode
          ∧ t.dev.sc.alarms = s.dev.sc.alarms ∧ t.dev.hcu.announced = s.dev.hcu.announced)

/-- NOTICE_COMPLETION: a section DIRTY in the snapshot and now, with a clear mark, becomes CLEAN (R14); Qa takes the
claim sent and a covered pending raise is applied (R106); the first NOTICE that shows CLEARING begins the intent
window with its key, a later one replaces the key's M (R128). Where no coupling begins, the next state has the statuses
so: FAULT always, PHASE in a bay whose blocks are evaluated and whose phase is settled, LAMP and HEAT where nothing of
their content changes in the event; a section with its mark set, or not DIRTY in the snapshot, keeps its status. In such
a bay the stage stands at the raise applied, where no lamp pass begins in the event, and the intent window runs for
600 ms. Deadlines: log entry 2; a NOTICE with a snapshot of an earlier stay in CLEARING: log entry 37. -/
def Obligations.NoticeCompletionActs : Prop :=
  ∀ (s : State) (snap : Snapshot) (bytes : List Byte) (failed : Nat) (covered : Bool) (shows : Bool),
    s.dev.lu.sending = true → s.dev.lu.flight = some ⟨.notice snap, bytes, failed⟩ →
    (covered = true ↔ ∃ id r, s.dev.identity = some id ∧ s.dev.hcu.raise = some r
      ∧ id.rating * r ≤ snap.q * id.stages ∧ r ≤ s.dev.targetStage) →
    (shows = true ↔ snap.phase = .clearing ∧ s.dev.cu.phase = .clearing) →
    CompletesWith .noticeCompletion s
      { s.dev with
        sc := { s.dev.sc with
          phase := s.dev.sc.phase.completed snap.phaseStatus, heat := s.dev.sc.heat.completed snap.heatStatus,
          lamp := s.dev.sc.lamp.completed snap.lampStatus, fault := s.dev.sc.fault.completed snap.faultStatus },
        lu := { s.dev.lu with
          flight := none, sending := false, receiver := .idle, quiet := false,
          quietTimer := some (s.dev.clock + 240) },
        hcu := { s.dev.hcu with
          announced := snap.q,
          stage := if covered = true then s.dev.hcu.raise.getD 0 else s.dev.hcu.stage,
          raise := if covered = true then none else s.dev.hcu.raise },
        cu := { s.dev.cu with
          intent :=
            if shows = true ∧ s.dev.cu.intent = .awaiting then .window else s.dev.cu.intent,
          intentTimer :=
            if shows = true ∧ s.dev.cu.intent = .awaiting then some (s.dev.clock + 600000)
            else s.dev.cu.intentTimer,
          key :=
            if shows = true ∧ s.dev.cu.intent ≠ .none then some ⟨snap.minutes.getD 65535, s.dev.conf.station⟩
            else s.dev.cu.key } }
      (fun t => s.dev.evaluated → s.dev.phaseSettled →
        t.hcu.announced = snap.q
        ∧ (∀ r, covered = true → s.dev.hcu.raise = some r → r ≤ s.dev.hcu.target → s.dev.claimForced = false →
            s.dev.ltu.stop = false → (∀ c ∈ s.dev.ltu.channels, c.joins s.dev.ftu = false) →
            ((s.dev.ltu.pass.isSome = true ∧ s.dev.ltu.endedAt ≠ some s.dev.clock)
              ∨ (s.dev.ltu.pendingRetest = false ∧ s.dev.ltu.pendingSignal = false
                ∧ s.dev.ltu.pendingFull = false)) →
            t.hcu.stage = r ∧ t.hcu.raise = none)
        ∧ (shows = true → s.dev.cu.intent = .awaiting →
            t.cu.phase = .clearing ∧ t.cu.intent = .window ∧ t.cu.intentTimer = some (s.dev.clock + 600000)
            ∧ t.cu.key = some ⟨snap.minutes.getD 65535, s.dev.conf.station⟩)
        ∧ (shows = true → s.dev.cu.intent = .window →
            t.cu.phase = .clearing ∧ t.cu.intent = .window ∧ t.cu.intentTimer = s.dev.cu.intentTimer
            ∧ t.cu.key = some ⟨snap.minutes.getD 65535, s.dev.conf.station⟩))
    ∧ (∀ (x : Section) (shown : SectionStatus),
        x.completed shown =
          if shown = .dirty ∧ x.status = .dirty ∧ x.mark = false then ⟨.clean, false⟩ else x)
    ∧ (s.dev.coupleNow = false →
        ∃ t, exec .noticeCompletion s = .next t
          ∧ t.dev.sc.fault = s.dev.sc.fault.completed snap.faultStatus
          ∧ (s.dev.evaluated → s.dev.phaseSettled →
              t.dev.sc.phase = s.dev.sc.phase.completed snap.phaseStatus)
          ∧ (s.dev.lampSame t.dev → t.dev.sc.lamp = s.dev.sc.lamp.completed snap.lampStatus)
          ∧ (s.dev.heatSame t.dev → s.dev.windowKept t.dev →
              t.dev.sc.heat = s.dev.sc.heat.completed snap.heatStatus))

/-- LIST_COMPLETION frees a place in the queue: without a reply in progress nothing more is queued; with one, its next
frame is accepted, built as things stand, a first one without entries too, and the reply ends once its entries have gone
(R146, R147, R165, R167). The moment kept of the LIST is log entry 35. -/
def Obligations.ListCompletionOffersTheNext : Prop :=
  ∀ (s : State) (frame : ListFrame) (bytes : List Byte) (failed : Nat),
    s.dev.lu.sending = true → s.dev.lu.flight = some ⟨.list frame, bytes, failed⟩ →
    ReplyGoesOn .listCompletion s
      { s.dev with
        lu := { s.dev.lu with
          flight := none, sending := false, receiver := .idle, quiet := false,
          quietTimer := some (s.dev.clock + 240), lineEvent := some s.dev.clock } }

/-- A NOTICE that passes the checks of R151 makes or refreshes the sender's entry and no other; a transition into
CLEARED restarts the spacing timer (R127), and a CLEARING NOTICE with a lower key, or a transition into CLEARED, ends
the own contest (R129): the intent state is NONE, the key is cleared and the intent timer stopped, and the bay is in
READY, where no preparation block takes it further, with the retry hold set. LANE is evaluated first (R151): where the
NOTICE brings it, the revocation takes the bay to READY without the retry hold (R131). A contest that is not lost goes
on. As line activity the NOTICE restarts the silence timer, and in ISOLATED outside a rejoin period it begins one, with
the stage as its cap (R115, R161); that this is taken before the frame's own effect is log entry 32. A NOTICE that fails
the checks is counted and used for nothing but line activity. A LIST counts as line activity alone (R143), and an entry
of 9 s goes (R152). Clock and deadlines: log entry 2. -/
def Obligations.NoticesKeepThePeerTable : Prop :=
  (∀ (s : State) (sender dest : Byte) (payload : List Byte) (previous : Option Phase) (entry : PeerEntry),
    s.dev.hearsFrom sender dest → payload.length = 16 → noticeOk payload = true →
    previous = (findPeer s.dev.lu.peers sender.toNat).map PeerEntry.phase →
    entry = noticeEntry sender.toNat payload previous s.dev.clock →
    ∃ t, exec (.noticeReceived sender dest payload) s = .next t ∧ t.pending = s.pending
      ∧ t.dev.clock = s.dev.clock ∧ t.dev.sc.silence = some (s.dev.clock + 10000000)
      ∧ t.dev.sc.rejoin = s.dev.heard.sc.rejoin ∧ t.dev.hcu.rejoinCap = s.dev.heard.hcu.rejoinCap
      ∧ t.dev.lu.receiver = .idle ∧ t.dev.lu.quiet = false
      ∧ findPeer t.dev.lu.peers sender.toNat = some entry
      ∧ (∀ n, n ≠ sender.toNat → findPeer t.dev.lu.peers n = findPeer s.dev.lu.peers n)
      ∧ (entry.phase = .cleared → previous ≠ some .cleared →
          t.dev.cu.spacing =
              (if s.dev.conf.spacing = 0 then none else some (s.dev.clock + s.dev.conf.spacing * 1000000))
          ∧ t.dev.cu.phase ≠ .clearing)
      ∧ (¬ (entry.phase = .cleared ∧ previous ≠ some .cleared) → t.dev.cu.spacing = s.dev.cu.spacing)
      ∧ (∀ lost : Bool,
          (lost = true ↔ s.dev.cu.phase = .clearing
            ∧ ((entry.phase = .cleared ∧ previous ≠ some .cleared)
              ∨ (s.dev.cu.intent = .window ∧ entry.phase = .clearing
                ∧ ∃ key m, s.dev.cu.key = some key ∧ entry.minutes = some m
                  ∧ (m < key.minutes ∨ (m = key.minutes ∧ sender.toNat < key.station))))) →
          (lost = true →
            t.dev.cu.phase ≠ .clearing ∧ t.dev.cu.phase ≠ .cleared ∧ t.dev.cu.intent = .none
            ∧ t.dev.cu.key = none ∧ t.dev.cu.intentTimer = none
            ∧ (s.dev.evaluated → s.dev.phaseSettled → s.dev.cu.blocks.preparation = false →
                s.dev.cu.blocks.noPlan = false →
                t.dev.cu.phase = .ready ∧ t.dev.cu.retryHold = !t.dev.cu.blocks.lane))
          ∧ (lost = false → s.dev.evaluated → s.dev.phaseSettled → t.dev.cu.phase = s.dev.cu.phase →
              t.dev.cu.intent = s.dev.cu.intent ∧ t.dev.cu.key = s.dev.cu.key
              ∧ t.dev.cu.intentTimer = s.dev.cu.intentTimer))
      ∧ (s.dev.coupleNow = false →
          t.dev.identity = s.dev.identity ∧ t.dev.hcu.energy = s.dev.hcu.energy ∧ t.dev.hcu.sat = s.dev.hcu.sat
          ∧ t.dev.ftu.table.map FaultEntry.record = s.dev.ftu.table.map FaultEntry.record
          ∧ t.dev.ltu.channels.map (fun c => (c.num, c.status, c.lastV, c.lastI, c.masked))
              = s.dev.ltu.channels.map (fun c => (c.num, c.status, c.lastV, c.lastI, c.masked)))
      ∧ t.dev.pins = s.dev.pins ∧ t.dev.sc.config = s.dev.sc.config
      ∧ t.dev.hcu.announced = s.dev.hcu.announced
      ∧ t.dev.lu.stats = s.dev.lu.stats ∧ t.dev.cu.plan = s.dev.cu.plan ∧ t.dev.sc.alarms = s.dev.sc.alarms
      ∧ t.dev.cu.holdLanes = s.dev.cu.holdLanes ∧ t.dev.lu.flight = s.dev.lu.flight
      ∧ t.dev.sc.mode = s.dev.sc.mode)
  ∧ (∀ (s : State) (sender dest : Byte) (payload : List Byte), s.dev.hearsFrom sender dest →
    payload.length = 16 → noticeOk payload = false →
    Completes (.noticeReceived sender dest payload) s
      { s.dev.heard with
        lu := { s.dev.heard.lu with
          stats := { s.dev.lu.stats with
            format :=
              if s.dev.lu.stats.format < 65535 then s.dev.lu.stats.format + 1 else s.dev.lu.stats.format } } })
  ∧ (∀ (s : State) (sender dest : Byte), s.dev.hearsFrom sender dest →
    Completes (.listReceived sender dest) s s.dev.heard)
  ∧ ∀ (s : State) (station : Nat) (e : PeerEntry), findPeer s.dev.lu.peers station = some e →
    Completes (.peerEntryExpiry station) s
      { s.dev with
        clock := max s.dev.clock (e.heard + 9000000),
        lu := { s.dev.lu with peers := s.dev.lu.peers.filter fun f => f.station != station } }

/-- The entry of a NOTICE: which fields are checked and which are clamped (R151, Table 63), the slack and Q to the nearer
end of their ranges. The NOTICE of a station whose values lie in their ranges carries each of its fields where Table 63
puts it, and passes the checks of a peer, whose entry gives the values back (R149, R169). -/
def Obligations.NoticeFieldsAreChecked : Prop :=
  (∀ payload : List Byte,
    noticeOk payload = true ↔
      (1 ≤ byteAt payload 0 ∧ byteAt payload 0 ≤ 16)
      ∧ (1 ≤ bitsAt payload 1 0 3 ∧ bitsAt payload 1 0 3 ≤ 4)
      ∧ bitsAt payload 2 0 4 ≤ 7 ∧ bitsAt payload 1 4 3 ≤ 5
      ∧ (wordAt payload 7 ≤ 1080 ∨ wordAt payload 7 = 65535))
  ∧ (∀ (station : Nat) (payload : List Byte) (previous : Option Phase) (now : Nat), noticeOk payload = true →
    let e := noticeEntry station payload previous now
    e.station = station ∧ e.lane = byteAt payload 0 ∧ e.position = bitsAt payload 1 0 3
    ∧ e.phase.code = bitsAt payload 2 0 4 ∧ e.mode.code = bitsAt payload 1 4 3 ∧ e.previous = previous
    ∧ e.q = min 160 (byteAt payload 9)
    ∧ e.slack = max (-1080) (min 1080 (signedAt payload 12))
    ∧ (wordAt payload 7 = 65535 → e.minutes = none)
    ∧ (wordAt payload 7 ≤ 1080 → e.minutes = some (wordAt payload 7))
    ∧ e.heard = now)
  ∧ ∀ (d : Device) (p : List Byte), p = d.noticePayload →
    1 ≤ d.conf.lane → d.conf.lane ≤ 16 → 1 ≤ d.conf.position → d.conf.position ≤ 4 → d.hp.q ≤ 160 →
    d.hcu.grant ≤ 160 → d.hcu.stage ≤ 7 → -1080 ≤ d.hp.slack → d.hp.slack ≤ 1080 →
    (∀ plan, d.cu.plan = some plan → plan.minutes ≤ 1080) →
    (∀ last, d.clc.lastStatus = some last → -80 ≤ last.tc ∧ last.tc ≤ 100) →
    p.length = 16 ∧ noticeOk p = true
    ∧ (∀ station previous now,
        noticeEntry station p previous now =
          ⟨station, d.conf.lane, d.conf.position, d.cu.phase, previous, d.sc.mode, d.hp.q, d.hp.slack,
            d.cu.plan.map Plan.minutes, now⟩)
    ∧ bitsAt p 2 4 2 = d.cu.matchState.code ∧ bitAt p 2 6 = (d.cu.plan.map Plan.late).getD false
    ∧ (bitAt p 3 0 = d.cu.blocks.noPlan ∧ bitAt p 3 1 = d.cu.blocks.planMismatch ∧ bitAt p 3 2 = d.cu.blocks.heat
      ∧ bitAt p 3 3 = d.cu.blocks.lampPending ∧ bitAt p 3 4 = d.cu.blocks.lampFail
      ∧ bitAt p 3 5 = d.cu.blocks.signalFail ∧ bitAt p 3 6 = d.cu.blocks.faultPending
      ∧ bitAt p 3 7 = d.cu.blocks.faultStop ∧ bitAt p 4 0 = d.cu.blocks.link ∧ bitAt p 4 1 = d.cu.blocks.lane
      ∧ bitAt p 4 2 = d.cu.blocks.hold ∧ bitAt p 4 3 = d.cu.blocks.station)
    ∧ readAlarms [p.getD 5 0#8] = d.sc.alarms
    ∧ bitsAt p 6 0 2 = d.sc.phase.status.code ∧ bitsAt p 6 2 2 = d.sc.heat.status.code
    ∧ bitsAt p 6 4 2 = d.sc.lamp.status.code ∧ bitsAt p 6 6 2 = d.sc.fault.status.code
    ∧ (d.cu.plan = none → wordAt p 7 = 65535)
    ∧ byteAt p 10 = d.hcu.grant ∧ bitsAt p 11 0 3 = d.hcu.stage ∧ bitsAt p 11 4 2 = d.clc.tcState.code
    ∧ (bitAt p 14 0 = d.hp.short ∧ bitAt p 14 1 = d.hp.unreachable ∧ bitAt p 14 2 = d.hcu.faultLockout
      ∧ bitAt p 14 3 = d.hcu.overLockout ∧ bitAt p 14 4 = d.hp.stale ∧ bitAt p 14 5 = d.hcu.shedFlag
      ∧ (bitAt p 14 6 = true ↔ d.hcu.window ≠ .none))
    ∧ (p.getD 15 0#8).toInt = (d.clc.lastStatus.map LastStatus.tc).getD 0

/-- The own number in the FROM of any frame is a number conflict: a station that speaks enters CONFLICT with its
timer, its queue emptied and its heater off, and one in CONFLICT restarts the timer; the frame is used for nothing
else (R143, R150, R162). That holds at the moment at which a QUERY is accepted too (R168; log entry 35). That the LU stops
before STATION joins is log entry 13. -/
def Obligations.OwnNumberIsAConflict : Prop :=
  ∀ (s : State) (c : Instr) (sender dest : Byte), frameAddresses c = some (sender, dest) →
    (s.dev.receives = true ∨ s.dev.atLineEvent = true) →
    1 ≤ sender.toNat → sender.toNat ≤ 63 → dest.toNat ≤ 63 → sender.toNat = s.dev.conf.station →
    (s.dev.sc.mode.speaks = true →
      ∃ t, exec c s = .next t ∧ t.pending = s.pending ∧ t.dev.clock = s.dev.clock
        ∧ t.dev.sc.mode = .conflict ∧ t.dev.sc.conflictTimer = some (s.dev.clock + 60000000)
        ∧ t.dev.sc.alarms = { s.dev.sc.alarms with numberConflict := true }
        ∧ t.dev.sc.rejoin = none ∧ t.dev.sc.listenTimer = none ∧ t.dev.hcu.rejoinCap = none
        ∧ t.dev.sc.silence = s.dev.sc.silence
        ∧ t.dev.lu =
            { s.dev.lu with
              receiver := .idle, quiet := false, quietTimer := some (s.dev.clock + 240),
              backoff := none, flight := none, unbegun := false, lists := [], reply := none,
              lineEvent := some s.dev.clock }
        ∧ t.dev.hcu.stage = 0 ∧ t.dev.hcu.grant = 0 ∧ t.dev.hp.q = 0
        ∧ t.dev.cu.blocks.station = true ∧ t.dev.cu.phase ≠ .clearing ∧ t.dev.cu.phase ≠ .cleared
        ∧ t.dev.cu.plan = s.dev.cu.plan ∧ t.dev.cu.holdLanes = s.dev.cu.holdLanes ∧ t.dev.pins = s.dev.pins)
    ∧ (s.dev.sc.mode = .conflict →
      Completes c s
        { s.dev with
          sc := { s.dev.sc with
            alarms := { s.dev.sc.alarms with numberConflict := true },
            conflictTimer := some (s.dev.clock + 60000000) },
          lu := { s.dev.lu with
            receiver := .idle, quiet := false, quietTimer := some (s.dev.clock + 240),
            lineEvent := some s.dev.clock } })

/-! ### Dispatch -/

/-- A PLAN accepted replaces the whole plan with its clamped fields, clears HEAT reached unless the target stays, and
masks the fitted coach channels it names (R5, R10, R96); a PLAN_CANCEL removes plan and masks, or nothing (R4). The
masks in every phase are log entry 25. That line activity is taken before the frame's own effect is log entry 32. -/
def Obligations.PlansAreStoredAndCancelled : Prop :=
  (∀ (s : State) (sender dest : Byte) (payload : List Byte) (plan : Plan), s.dev.obeys sender dest →
    payload.length = 8 → plan = readPlan payload →
    ∃ t, exec (.plan sender dest payload) s = .next t ∧ t.pending = s.pending
      ∧ Followed
          { s.dev.heard with
            cu := { s.dev.cu with plan := some plan },
            hp := { s.dev.hp with
              reached := s.dev.hp.reached
                && decide (s.dev.cu.plan.map Plan.target = some plan.target) },
            ltu := { s.dev.ltu with
              channels := s.dev.ltu.channels.map fun c =>
                { c with
                  masked := decide (c.num ≤ 16) && decide (c.status ≠ .off) && plan.mask.getLsbD (c.num - 1) } } }
          t.dev
      ∧ (s.dev.cu.plan ≠ some plan → s.dev.sc.mode.speaks = true → t.dev.lu.unbegun = true))
  ∧ (∀ payload : List Byte,
    (readPlan payload).coach = wordAt payload 0 ∧ (readPlan payload).minutes = min 1080 (wordAt payload 2)
    ∧ (readPlan payload).target = (max 20 (min 48 (byteAt payload 4)) : Nat)
    ∧ (readPlan payload).heatWaiver = bitAt payload 5 1 ∧ (readPlan payload).laneWaiver = bitAt payload 5 2
    ∧ (readPlan payload).mask = BitVec.ofNat 16 (wordAt payload 6) ∧ (readPlan payload).late = false)
  ∧ (∀ (s : State) (sender dest : Byte) (payload : List Byte), s.dev.obeys sender dest → payload.length = 8 →
    s.dev.cu.plan.isSome = true →
    ∃ t, exec (.planCancel sender dest payload) s = .next t ∧ t.pending = s.pending
      ∧ Followed
          { s.dev.heard with
            cu := { s.dev.cu with plan := none },
            ltu := { s.dev.ltu with channels := s.dev.ltu.channels.map fun c => { c with masked := false } } }
          t.dev
      ∧ t.dev.cu.matchState = .none ∧ t.dev.hp.q = 0 ∧ t.dev.hcu.stage = 0)
  ∧ ∀ (s : State) (sender dest : Byte) (payload : List Byte), s.dev.obeys sender dest → payload.length = 8 →
    s.dev.cu.plan = none → Completes (.planCancel sender dest payload) s s.dev.heard

/-- A HOLD accepted, addressed or broadcast, replaces the lane set whole (R124); an ACKNOWLEDGE clears the latches it
names and no other, OVERCURRENT with its lockout, and CONTACTOR_FAIL with the contactor check armed again (R16, R17).
That line activity is taken before the frame's own effect is log entry 32. -/
def Obligations.HoldAndAcknowledgeAct : Prop :=
  (∀ (s : State) (sender dest : Byte) (payload : List Byte), s.dev.hearsFrom sender dest →
    (sender.toNat = s.dev.conf.dispatch1 ∨ sender.toNat = s.dev.conf.dispatch2) →
    (dest.toNat = 0 ∨ dest.toNat = s.dev.conf.station) → payload.length = 2 →
    Completes (.hold sender dest payload) s
      { s.dev.heard with cu := { s.dev.cu with holdLanes := BitVec.ofNat 16 (wordAt payload 0) } })
  ∧ ∀ (s : State) (sender dest : Byte) (payload : List Byte), s.dev.obeys sender dest → payload.length = 1 →
    Completes (.acknowledge sender dest payload) s
      { s.dev.heard with
        sc := { s.dev.heard.sc with
          alarms :=
            { pullout := s.dev.sc.alarms.pullout && !bitAt payload 0 0,
              overcurrent := s.dev.sc.alarms.overcurrent && !bitAt payload 0 1,
              contactorFail := s.dev.sc.alarms.contactorFail && !bitAt payload 0 2,
              linkLost := s.dev.sc.alarms.linkLost && !bitAt payload 0 3,
              signalRedFail := s.dev.sc.alarms.signalRedFail && !bitAt payload 0 4,
              numberConflict := s.dev.sc.alarms.numberConflict && !bitAt payload 0 5,
              shedLineFault := s.dev.sc.alarms.shedLineFault && !bitAt payload 0 6,
              probeFault := s.dev.sc.alarms.probeFault && !bitAt payload 0 7 } },
        hcu := { s.dev.heard.hcu with
          overLockout := s.dev.hcu.overLockout && !(s.dev.sc.alarms.overcurrent && bitAt payload 0 1),
          armed := s.dev.hcu.armed || (s.dev.sc.alarms.contactorFail && bitAt payload 0 2) } }

/-- A QUERY accepted ends the reply in progress: in CONFLICT it leaves none; with two LIST frames held its reply
waits; with one held its first LIST is queued, built from the start index as things stand, and with none held the
second as well where entries are left; the reply is over when they have gone (R165, R166, R167). That holds at the
moment an own LIST leaves the queue or a number conflict is reported too (R168; log entry 35). One of an unknown subject is counted as a format error
(R164). A LIST carries subject, first index, total, with FAULTS the read summary, and the entries from the first index
on, each field where Tables 65 and 66 put it (R61, R82, R117, R153, R169); the whole seconds of the summary are log
entry 33. That line activity is taken before the frame's own effect is log entry 32. -/
def Obligations.QueriesStartTheirReply : Prop :=
  (∀ (s : State) (sender dest start : Byte) (c : Instr) (subject : Subject) (total count : Nat) (first second : Reply)
    (taken : Device),
    s.dev.obeysQuery sender dest →
    ((c = .queryLamps sender dest start ∧ subject = .lamps)
      ∨ (c = .queryFaults sender dest start ∧ subject = .faults)
      ∨ (c = .queryHeat sender dest start ∧ subject = .heat)
      ∨ (c = .queryLine sender dest start ∧ subject = .line)) →
    total = s.dev.subjectTotal subject → count = min subject.limit (total - start.toNat) →
    first = ⟨subject, sender.toNat, start.toNat, 0⟩ →
    second = ⟨subject, sender.toNat, start.toNat + count, 1⟩ →
    taken = { s.dev.heard with lu := { s.dev.heard.lu with lineEvent := some s.dev.clock } } →
    (s.dev.sc.mode = .conflict →
      Completes c s { taken with lu := { taken.lu with reply := none } })
    ∧ (s.dev.sc.mode.speaks = true → 2 ≤ s.dev.lu.listsHeld →
      Completes c s { taken with lu := { taken.lu with reply := some first } })
    ∧ (s.dev.sc.mode.speaks = true → s.dev.lu.listsHeld = 1 →
      Completes c s
        { taken with
          lu := { taken.lu with
            lists := s.dev.lu.lists ++ [s.dev.buildList first],
            reply := if count = 0 then none else some second } })
    ∧ (s.dev.sc.mode.speaks = true → s.dev.lu.listsHeld = 0 → total ≤ start.toNat + count →
      Completes c s
        { taken with
          lu := { taken.lu with lists := s.dev.lu.lists ++ [s.dev.buildList first], reply := none } })
    ∧ (s.dev.sc.mode.speaks = true → s.dev.lu.listsHeld = 0 → start.toNat + count < total →
      Completes c s
        { taken with
          lu := { taken.lu with
            lists := s.dev.lu.lists ++ [s.dev.buildList first, s.dev.buildList second],
            reply :=
              some ⟨subject, sender.toNat,
                start.toNat + count + min subject.limit (total - (start.toNat + count)), 2⟩ } }))
  ∧ (∀ (s : State) (sender dest subject start : Byte), s.dev.obeysQuery sender dest →
    Completes (.queryUnknownSubject sender dest subject start) s
      { s.dev.heard with
        lu := { s.dev.heard.lu with
          stats := { s.dev.lu.stats with
            format :=
              if s.dev.lu.stats.format < 65535 then s.dev.lu.stats.format + 1 else s.dev.lu.stats.format } } })
  ∧ (∀ (d : Device) (reply : Reply) (p : List Byte), p = (d.buildList reply).payload → reply.next ≤ 255 →
    d.subjectTotal reply.subject ≤ 255 →
    (d.buildList reply).dest = reply.requester ∧ (d.buildList reply).subject = reply.subject
    ∧ (d.buildList reply).first = reply.next ∧ (d.buildList reply).total = d.subjectTotal reply.subject
    ∧ byteAt p 0 = reply.subject.code ∧ byteAt p 1 = reply.next ∧ byteAt p 2 = d.subjectTotal reply.subject
    ∧ p.drop 3 =
        (if reply.subject = .faults then d.readSummary else [])
          ++ (((d.subjectEntries reply.subject).drop reply.next).take reply.subject.limit).flatten
    ∧ p.length =
        3 + (if reply.subject = .faults then 3 else 0)
          + (match reply.subject with
              | .lamps => 5
              | .faults => 6
              | .heat => 21
              | .line => 10)
            * min reply.subject.limit (d.subjectTotal reply.subject - reply.next))
  ∧ (∀ d : Device,
    (d.ltu.tableOk → d.subjectTotal .lamps = 19) ∧ d.subjectTotal .faults = d.ftu.table.length
    ∧ d.subjectTotal .heat = 1 ∧ d.subjectTotal .line = 1
    ∧ ∀ n : Nat, (d.subjectEntries .lamps)[n]? = (d.ltu.channels[n]?).map Channel.entryBytes
      ∧ (d.subjectEntries .faults)[n]? = (d.ftu.table[n]?).map (FaultEntry.entryBytes d.conf.restrictive))
  ∧ (∀ d : Device, d.ftu.overflow ≤ 255 →
    wordAt d.readSummary 0 % 2048 =
        (match d.ftu.lastComplete with
          | none => 2047
          | some at_ => min 2046 ((d.clock - at_) / 1000000))
    ∧ bitAt d.readSummary 1 3 = d.ftu.read.isSome ∧ bitsAt d.readSummary 1 4 2 = d.ftu.lastEnding.code
    ∧ bitAt d.readSummary 1 6 = d.ftu.reread ∧ bitAt d.readSummary 1 7 = d.ftu.blockingDropped
    ∧ byteAt d.readSummary 2 = d.ftu.overflow)
  ∧ (∀ (c : Channel) (e : List Byte), e = c.entryBytes → c.lastV ≤ 65535 → c.lastI ≤ 255 → c.retries ≤ 6 →
    bitsAt e 0 0 3 = c.status.code ∧ bitAt e 0 4 = c.masked ∧ bitAt e 0 5 = c.coachReported
    ∧ bitAt e 0 6 = c.confirmed ∧ bitAt e 0 7 = c.isFinal ∧ wordAt e 1 = c.lastV ∧ byteAt e 3 = c.lastI
    ∧ byteAt e 4 = c.retries)
  ∧ (∀ (restrictive : BitVec 7) (f : FaultEntry) (e : List Byte), e = f.entryBytes restrictive →
    f.record.module ≤ 63 → f.record.severity ≤ 3 → f.record.code ≤ 65535 → f.record.occurrences ≤ 255 →
    (∀ n, f.record.hint = some n → n ≤ 16) →
    bitsAt e 0 0 6 = f.record.module ∧ bitsAt e 0 6 2 = f.record.severity ∧ bitsAt e 1 0 3 = f.record.cls.code
    ∧ bitAt e 1 3 = f.record.active ∧ bitAt e 1 4 = f.record.blocking restrictive ∧ bitAt e 1 5 = f.seen
    ∧ wordAt e 2 = f.record.code ∧ byteAt e 4 = f.record.occurrences ∧ byteAt e 5 = f.record.hint.getD 0)
  ∧ (∀ (st : Stats) (e : List Byte), e = st.entryBytes → st.format ≤ 65535 → st.gap ≤ 65535 →
    st.collisions ≤ 65535 → st.dropped ≤ 65535 → st.unauthorised ≤ 65535 →
    wordAt e 0 = st.format ∧ wordAt e 2 = st.gap ∧ wordAt e 4 = st.collisions ∧ wordAt e 6 = st.dropped
    ∧ wordAt e 8 = st.unauthorised)
  ∧ ∀ (d : Device) (e : List Byte) (held : Nat → Nat), e = d.heatEntry →
    (∀ n, held n = if d.identity.isSome = true then n else 0) →
    (∀ last, d.clc.lastStatus = some last → -80 ≤ last.tc ∧ last.tc ≤ 100) →
    -80 ≤ d.hp.toInUse → d.hp.toInUse ≤ 100 → (∀ plan, d.cu.plan = some plan → 20 ≤ plan.target ∧ plan.target ≤ 48) →
    d.hcu.stage ≤ 7 → d.hp.ew ≤ 160000 → d.hp.p ≤ 2730667 → d.hp.q ≤ 160 → d.hcu.grant ≤ 160 →
    d.hcu.announced ≤ 160 → -1080 ≤ d.hp.slack → d.hp.slack ≤ 1080 → d.hp.tf ≤ 1080 → d.hcu.energy ≤ 4294967295 →
    (e.getD 0 0#8).toInt = (d.clc.lastStatus.map LastStatus.tc).getD 0
    ∧ bitsAt e 1 0 2 = d.clc.tcState.code ∧ bitsAt e 1 2 3 = held d.hcu.stage ∧ bitAt e 1 5 = d.hcu.sat
    ∧ bitAt e 1 6 = (d.identity.map CoachIdentity.clamped).getD false ∧ bitAt e 1 7 = d.hp.reached
    ∧ (e.getD 2 0#8).toInt = d.hp.toInUse ∧ (byteAt e 3 : Int) = (d.cu.plan.map Plan.target).getD 0
    ∧ wordAt e 4 + 65536 * byteAt e 6 = held d.hp.ew ∧ wordAt e 7 + 65536 * byteAt e 9 = held d.hp.p
    ∧ byteAt e 10 = held d.hp.q ∧ byteAt e 11 = held d.hcu.grant ∧ byteAt e 12 = held d.hcu.announced
    ∧ signedAt e 13 = d.hp.slack ∧ wordAt e 15 = held d.hp.tf ∧ byteAt e 17 = byteAt d.noticePayload 14
    ∧ wordAt e 18 + 65536 * byteAt e 20 = d.hcu.energy / 1000

/-- A dispatch frame to another station is ignored (R143); one from a node without a dispatch number in use is counted
as unauthorised; and one to all that is no HOLD is counted as a format error (R164). Each is line activity and nothing
more. -/
def Obligations.UnacceptedDispatchFramesActOnNothing : Prop :=
  ∀ (s : State) (c : Instr) (sender dest : Byte), dispatchAddresses c = some (sender, dest) →
    s.dev.hearsFrom sender dest →
    (dest.toNat ≠ 0 → dest.toNat ≠ s.dev.conf.station → Completes c s s.dev.heard)
    ∧ ((dest.toNat = 0 ∨ dest.toNat = s.dev.conf.station) → sender.toNat ≠ s.dev.conf.dispatch1 →
        sender.toNat ≠ s.dev.conf.dispatch2 →
        Completes c s
          { s.dev.heard with
            lu := { s.dev.heard.lu with
              stats := { s.dev.lu.stats with
                unauthorised :=
                  if s.dev.lu.stats.unauthorised < 65535 then s.dev.lu.stats.unauthorised + 1
                  else s.dev.lu.stats.unauthorised } } })
    ∧ (dest.toNat = 0 → (sender.toNat = s.dev.conf.dispatch1 ∨ sender.toNat = s.dev.conf.dispatch2) →
        (∀ payload, c ≠ .hold sender dest payload) →
        Completes c s
          { s.dev.heard with
            lu := { s.dev.heard.lu with
              stats := { s.dev.lu.stats with
                format :=
                  if s.dev.lu.stats.format < 65535 then s.dev.lu.stats.format + 1
                  else s.dev.lu.stats.format } } })

/-! ### Invariants that every step keeps -/

/-- The invariants stated below hold right after reset. -/
def Obligations.InvariantsHoldAtReset : Prop :=
  State.reset.dev.stageCapped ∧ State.reset.dev.stageAnnounced ∧ State.reset.dev.identifiesInCoupling
  ∧ State.reset.dev.evaluated ∧ State.reset.dev.phaseSettled ∧ State.reset.dev.peersOk
  ∧ State.reset.dev.ltu.tableOk ∧ State.reset.dev.ftu.tableOk ∧ State.reset.dev.countersOk
  ∧ State.reset.dev.lu.queueOk ∧ State.reset.dev.cu.contestOk ∧ State.reset.dev.silentModes
  ∧ State.reset.dev.conflictSilent ∧ State.reset.dev.monitorOk ∧ State.reset.dev.aspectOk

/-- Every step keeps the stage and a pending raise within the target that the grant and the caps allow (R102, R104):
so the stage is 0 whenever the shed sense is ASSERTED, a lockout is set or no heat is computed. -/
def Obligations.StageStaysWithinItsCaps : Prop :=
  ∀ s t : State, s.dev.stageCapped → step s = .next t → t.dev.stageCapped

/-- Announce, then draw: every step keeps the stage covered by the claim last announced and by the claim of a NOTICE
in flight, and the grant within the claim (R101, R106). -/
def Obligations.StageStaysAnnounced : Prop :=
  ∀ s t : State, s.dev.stageAnnounced → s.dev.stageCapped → s.dev.identifiesInCoupling → step s = .next t →
    t.dev.stageAnnounced ∧ t.dev.stageCapped ∧ t.dev.identifiesInCoupling

/-- After every step the match state, LOCKOUT-FAULT and the block set are what the state gives, and no phase rule is
left to apply: no bay stands in CLEARING or CLEARED with a revoking block or outside its release lead (R57, R120, R125,
R126, R131, R132). What the state gives: the match state NONE, MATCHED or MISMATCH by plan, identity and phase (R6), and
each block exactly while its condition holds in the phases of Table 46: NO_PLAN, PLAN_MISMATCH and STATION (R122), HEAT
(R97), LINK (R31), LANE (R123), HOLD (R124). The blocks of the fault table stand so in `FaultTableHandsOnItsConditions`,
those of the lamps in `RecordsFollowTheJudgement`. And which blocks are preparation, departure-path and revoking blocks
(Table 46). -/
def Obligations.BlocksAndPhaseStaySettled : Prop :=
  (∀ s t : State, s.dev.evaluated → s.dev.phaseSettled → step s = .next t → t.dev.evaluated ∧ t.dev.phaseSettled)
  ∧ (∀ d : Device,
    (d.evalMatch = .none ↔ d.cu.plan = none ∨ d.identity = none ∨ d.cu.phase = .departing)
    ∧ ∀ plan id, d.cu.plan = some plan → d.identity = some id → d.cu.phase ≠ .departing →
      (plan.coach = 0 ∨ plan.coach = id.number → d.evalMatch = .matched)
      ∧ (plan.coach ≠ 0 → plan.coach ≠ id.number → d.evalMatch = .mismatch))
  ∧ (∀ (d : Device) (coupled : Prop), (coupled ↔ d.cu.phase ≠ .vacant ∧ d.cu.phase ≠ .departing) →
    (d.evalBlocks.noPlan = true ↔ coupled ∧ d.cu.plan = none)
    ∧ (d.evalBlocks.planMismatch = true ↔ coupled ∧ d.cu.matchState = .mismatch)
    ∧ (d.evalBlocks.station = true ↔ d.sc.mode = .conflict)
    ∧ (d.evalBlocks.heat = true ↔
        coupled ∧ ∃ plan, d.cu.plan = some plan ∧ plan.heatWaiver = false ∧ 0 < plan.minutes ∧ d.hp.reached = false)
    ∧ (d.evalBlocks.link = true ↔ coupled ∧ d.clc.linkUp = false)
    ∧ (d.evalBlocks.lane = true ↔
        coupled ∧ 2 ≤ d.conf.position ∧ (∀ plan, d.cu.plan = some plan → plan.laneWaiver = false)
        ∧ ∃ q, 1 ≤ q ∧ q < d.conf.position
          ∧ ¬ ((∃ e ∈ d.lu.peers, e.lane = d.conf.lane ∧ e.position = q)
            ∧ ∀ e ∈ d.lu.peers, e.lane = d.conf.lane → e.position = q → e.phase = .vacant))
    ∧ (d.evalBlocks.hold = true ↔ coupled ∧ d.cu.holdLanes.getLsbD (d.conf.lane - 1) = true))
  ∧ ∀ b : Blocks,
    (b.preparation = true ↔
      b.noPlan = true ∨ b.planMismatch = true ∨ b.heat = true ∨ b.lampPending = true ∨ b.lampFail = true
        ∨ b.signalFail = true ∨ b.faultPending = true ∨ b.faultStop = true ∨ b.link = true)
    ∧ (b.departurePath = true ↔ b.lane = true ∨ b.hold = true ∨ b.station = true)
    ∧ (b.revoking = true ↔
      b.noPlan = true ∨ b.planMismatch = true ∨ b.lampFail = true ∨ b.signalFail = true ∨ b.faultStop = true
        ∨ b.lane = true ∨ b.hold = true ∨ b.station = true)

/-- Every step keeps the Peer Table in station number order, one entry a number, none the own, each 1..63, empty in
START (R151, R152). -/
def Obligations.PeerTableStaysInOrder : Prop :=
  ∀ s t : State, s.dev.peersOk → step s = .next t → t.dev.peersOk

/-- Every step keeps the Lamp Table's 19 channels with their counts to 6, the Fault Table to 32 entries with one a
fault, the counters within their ranges, the queue to two LIST frames, and the contest to CLEARING (that the
contest key goes at every change of phase is the model's choice: log entry 38) (R53, R55, R62,
R67, R116, R128, R146, R147, R153). -/
def Obligations.TablesCountersAndContestStayWithinBounds : Prop :=
  ∀ s t : State, step s = .next t →
    (s.dev.ltu.tableOk → t.dev.ltu.tableOk) ∧ (s.dev.ftu.tableOk → t.dev.ftu.tableOk)
    ∧ (s.dev.countersOk → t.dev.countersOk) ∧ (s.dev.lu.queueOk → t.dev.lu.queueOk)
    ∧ (s.dev.cu.contestOk → t.dev.cu.contestOk)

/-- Every step keeps START and HALT without ticks, timers, sending and heat, and CONFLICT without anything to send
(R150, R154, R158, R162, R166). -/
def Obligations.SilentModesStaySilent : Prop :=
  ∀ s t : State, step s = .next t →
    (s.dev.silentModes → t.dev.silentModes) ∧ (s.dev.conflictSilent → t.dev.conflictSilent)

/-- Every step keeps the current monitor in the state of Table 41 and the bay signal on the aspect of Table 47 (R112,
R113, R138). The monitor in a pull is log entry 10. -/
def Obligations.MonitorAndAspectFollow : Prop :=
  ∀ s t : State, step s = .next t →
    (s.dev.monitorOk → t.dev.monitorOk) ∧ (s.dev.aspectOk → t.dev.aspectOk)

/-- An alarm latch stays set through every command but an ACKNOWLEDGE, POWER_ON, RESET_ASSERT and RESET_RELEASE, and
an ACKNOWLEDGE clears none that it does not name (R15, R16). -/
def Obligations.AlarmsStayLatched : Prop :=
  (∀ (c : Instr) (s t : State), exec c s = .next t → c ≠ .powerOn → c ≠ .resetAssert → c ≠ .resetRelease →
    (∀ sender dest payload, c ≠ .acknowledge sender dest payload) → s.dev.sc.alarms.within t.dev.sc.alarms)
  ∧ ∀ (s t : State) (sender dest : Byte) (payload : List Byte),
    exec (.acknowledge sender dest payload) s = .next t →
    (s.dev.sc.alarms.without (readAlarms payload)).within t.dev.sc.alarms

/-- The energy counter never goes down but at a reset and at entry to COUPLING, where it starts at 0 with SAT clear,
and SAT stays set till then (R116). -/
def Obligations.EnergyOnlyGrows : Prop :=
  ∀ (c : Instr) (s t : State), exec c s = .next t → c ≠ .powerOn → c ≠ .resetAssert → c ≠ .resetRelease →
    s.dev.hcu.energy ≤ 4294967295 →
    (s.dev.hcu.energy ≤ t.dev.hcu.energy ∧ (s.dev.hcu.sat = true → t.dev.hcu.sat = true))
    ∨ (t.dev.cu.phase = .coupling ∧ t.dev.hcu.energy = 0 ∧ t.dev.hcu.sat = false)

/-- A change of a section's content, as Table 13 lists it, makes the section DIRTY with its change mark set, unless it is
OFF, and a change of PHASE content asks for an early NOTICE where the station sends (R13). It holds for every command
but those of reset and of the entry to LISTEN, after which PHASE is INITIAL or every section OFF (R12). LAMP and FAULT
that are OFF record nothing, and take INITIAL from the identity write, LAMP DIRTY where the full pass begun in it clears
final on a signal channel; that a section's status counts otherwise as it stood when the event came is log entry 22. What
is no change marks nothing: a section whose content stands keeps its status and its mark. So the countdown of M, slack,
Tc, To, Ed, an occurrence count and a channel's V and I mark nothing. Left out there are the commands that write the
statuses themselves: the identity write and the two events of a NOTICE's sending (R12, R14). A content that changes and
changes back in one event has changed: so a window released and asked for again, the final flag that a judgement sets and
the full pass that follows it clears, and the records of one RECORDS frame, merged one after the other. A section that is
torn down is OFF (R12). -/
def Obligations.ChangesAreMarked : Prop :=
  (∀ (c : Instr) (s t : State), exec c s = .next t → c ≠ .powerOn → c ≠ .resetAssert → c ≠ .resetRelease →
    (∀ lineHigh, c ≠ .shedSelfTestEnd lineHigh) → c ≠ .conflictQuietExpiry →
    (¬ s.dev.phaseSame c t.dev →
      (t.dev.sc.phase = ⟨.dirty, true⟩ ∨ t.dev.sc.phase.status = .off)
      ∧ (t.dev.sc.mode.speaks = true → t.dev.lu.unbegun = true))
    ∧ (s.dev.sc.heat.status ≠ .off → ¬ s.dev.heatSame t.dev →
        t.dev.sc.heat = ⟨.dirty, true⟩ ∨ t.dev.sc.heat.status = .off)
    ∧ (s.dev.sc.lamp.status ≠ .off → ¬ s.dev.lampSame t.dev →
        t.dev.sc.lamp = ⟨.dirty, true⟩ ∨ t.dev.sc.lamp.status = .off)
    ∧ (s.dev.sc.fault.status ≠ .off → ¬ s.dev.faultSame t.dev →
        t.dev.sc.fault = ⟨.dirty, true⟩ ∨ t.dev.sc.fault.status = .off)
    ∧ (s.dev.sc.lamp.status = .off →
        t.dev.sc.lamp.status = .off ∨ t.dev.sc.lamp = ⟨.initial, false⟩
        ∨ (t.dev.sc.lamp = ⟨.dirty, true⟩
          ∧ ∃ x ∈ s.dev.ltu.channels, 16 < x.num ∧ x.isFinal = true
            ∧ ∃ y ∈ t.dev.ltu.channels, y.num = x.num ∧ y.isFinal = false))
    ∧ (s.dev.sc.fault.status = .off → t.dev.sc.fault.status = .off ∨ t.dev.sc.fault = ⟨.initial, false⟩))
  ∧ ∀ (c : Instr) (s t : State), exec c s = .next t → c ≠ .powerOn → c ≠ .resetAssert → c ≠ .resetRelease →
    (∀ lineHigh, c ≠ .shedSelfTestEnd lineHigh) → c ≠ .conflictQuietExpiry →
    (∀ payload, c ≠ .profile payload) → c ≠ .backoffExpiry → c ≠ .noticeCompletion →
    ((∀ payload, c = .records payload → payload.length = 1) → s.dev.phaseSame c t.dev →
      t.dev.sc.phase = s.dev.sc.phase)
    ∧ ((∀ payload, c = .records payload → payload.length = 1) → s.dev.heatSame t.dev → s.dev.windowKept t.dev →
        (t.dev.cu.phase.tornDown = false ∨ s.dev.sc.heat = ⟨.off, false⟩) → t.dev.sc.heat = s.dev.sc.heat)
    ∧ ((∀ payload, c = .records payload → payload.length = 1) → s.dev.lampSame t.dev →
        ((∀ v i u, c ≠ .measurementEnd v i u) ∨ (∀ pass, t.dev.ltu.pass = some pass → pass.kind ≠ .full)
          ∨ ∃ pass, s.dev.ltu.pass = some pass ∧ pass.remaining.tail ≠ []) →
        (t.dev.cu.phase.tornDown = false ∨ s.dev.sc.lamp = ⟨.off, false⟩) → t.dev.sc.lamp = s.dev.sc.lamp)
    ∧ ((∀ payload, c = .records payload → payload.length ≤ 9) → s.dev.faultSame t.dev →
        (t.dev.cu.phase.tornDown = false ∨ s.dev.sc.fault = ⟨.off, false⟩) → t.dev.sc.fault = s.dev.sc.fault)
end

