-- ==== Sys2Proof/Laws/State.lean ====
section
/-! SUPPORT. What each update of one block leaves alone and what it sets: one lemma per field per update, true by
unfolding. Later proofs cite these and unfold no record update. -/

namespace Sys2Proof.Machine

variable (d : Device)

/-! ### onSc -/

@[simp] theorem Device.onSc_clock (f : Sc → Sc) : (d.onSc f).clock = d.clock := rfl
@[simp] theorem Device.onSc_pins (f : Sc → Sc) : (d.onSc f).pins = d.pins := rfl
@[simp] theorem Device.onSc_sc (f : Sc → Sc) : (d.onSc f).sc = f d.sc := rfl
@[simp] theorem Device.onSc_identity (f : Sc → Sc) : (d.onSc f).identity = d.identity := rfl
@[simp] theorem Device.onSc_clc (f : Sc → Sc) : (d.onSc f).clc = d.clc := rfl
@[simp] theorem Device.onSc_ftu (f : Sc → Sc) : (d.onSc f).ftu = d.ftu := rfl
@[simp] theorem Device.onSc_ltu (f : Sc → Sc) : (d.onSc f).ltu = d.ltu := rfl
@[simp] theorem Device.onSc_hp (f : Sc → Sc) : (d.onSc f).hp = d.hp := rfl
@[simp] theorem Device.onSc_hcu (f : Sc → Sc) : (d.onSc f).hcu = d.hcu := rfl
@[simp] theorem Device.onSc_cu (f : Sc → Sc) : (d.onSc f).cu = d.cu := rfl
@[simp] theorem Device.onSc_lu (f : Sc → Sc) : (d.onSc f).lu = d.lu := rfl

/-! ### onClc -/

@[simp] theorem Device.onClc_clock (f : Clc → Clc) : (d.onClc f).clock = d.clock := rfl
@[simp] theorem Device.onClc_pins (f : Clc → Clc) : (d.onClc f).pins = d.pins := rfl
@[simp] theorem Device.onClc_sc (f : Clc → Clc) : (d.onClc f).sc = d.sc := rfl
@[simp] theorem Device.onClc_identity (f : Clc → Clc) : (d.onClc f).identity = d.identity := rfl
@[simp] theorem Device.onClc_clc (f : Clc → Clc) : (d.onClc f).clc = f d.clc := rfl
@[simp] theorem Device.onClc_ftu (f : Clc → Clc) : (d.onClc f).ftu = d.ftu := rfl
@[simp] theorem Device.onClc_ltu (f : Clc → Clc) : (d.onClc f).ltu = d.ltu := rfl
@[simp] theorem Device.onClc_hp (f : Clc → Clc) : (d.onClc f).hp = d.hp := rfl
@[simp] theorem Device.onClc_hcu (f : Clc → Clc) : (d.onClc f).hcu = d.hcu := rfl
@[simp] theorem Device.onClc_cu (f : Clc → Clc) : (d.onClc f).cu = d.cu := rfl
@[simp] theorem Device.onClc_lu (f : Clc → Clc) : (d.onClc f).lu = d.lu := rfl

/-! ### onFtu -/

@[simp] theorem Device.onFtu_clock (f : Ftu → Ftu) : (d.onFtu f).clock = d.clock := rfl
@[simp] theorem Device.onFtu_pins (f : Ftu → Ftu) : (d.onFtu f).pins = d.pins := rfl
@[simp] theorem Device.onFtu_sc (f : Ftu → Ftu) : (d.onFtu f).sc = d.sc := rfl
@[simp] theorem Device.onFtu_identity (f : Ftu → Ftu) : (d.onFtu f).identity = d.identity := rfl
@[simp] theorem Device.onFtu_clc (f : Ftu → Ftu) : (d.onFtu f).clc = d.clc := rfl
@[simp] theorem Device.onFtu_ftu (f : Ftu → Ftu) : (d.onFtu f).ftu = f d.ftu := rfl
@[simp] theorem Device.onFtu_ltu (f : Ftu → Ftu) : (d.onFtu f).ltu = d.ltu := rfl
@[simp] theorem Device.onFtu_hp (f : Ftu → Ftu) : (d.onFtu f).hp = d.hp := rfl
@[simp] theorem Device.onFtu_hcu (f : Ftu → Ftu) : (d.onFtu f).hcu = d.hcu := rfl
@[simp] theorem Device.onFtu_cu (f : Ftu → Ftu) : (d.onFtu f).cu = d.cu := rfl
@[simp] theorem Device.onFtu_lu (f : Ftu → Ftu) : (d.onFtu f).lu = d.lu := rfl

/-! ### onLtu -/

@[simp] theorem Device.onLtu_clock (f : Ltu → Ltu) : (d.onLtu f).clock = d.clock := rfl
@[simp] theorem Device.onLtu_pins (f : Ltu → Ltu) : (d.onLtu f).pins = d.pins := rfl
@[simp] theorem Device.onLtu_sc (f : Ltu → Ltu) : (d.onLtu f).sc = d.sc := rfl
@[simp] theorem Device.onLtu_identity (f : Ltu → Ltu) : (d.onLtu f).identity = d.identity := rfl
@[simp] theorem Device.onLtu_clc (f : Ltu → Ltu) : (d.onLtu f).clc = d.clc := rfl
@[simp] theorem Device.onLtu_ftu (f : Ltu → Ltu) : (d.onLtu f).ftu = d.ftu := rfl
@[simp] theorem Device.onLtu_ltu (f : Ltu → Ltu) : (d.onLtu f).ltu = f d.ltu := rfl
@[simp] theorem Device.onLtu_hp (f : Ltu → Ltu) : (d.onLtu f).hp = d.hp := rfl
@[simp] theorem Device.onLtu_hcu (f : Ltu → Ltu) : (d.onLtu f).hcu = d.hcu := rfl
@[simp] theorem Device.onLtu_cu (f : Ltu → Ltu) : (d.onLtu f).cu = d.cu := rfl
@[simp] theorem Device.onLtu_lu (f : Ltu → Ltu) : (d.onLtu f).lu = d.lu := rfl

/-! ### onHp -/

@[simp] theorem Device.onHp_clock (f : Hp → Hp) : (d.onHp f).clock = d.clock := rfl
@[simp] theorem Device.onHp_pins (f : Hp → Hp) : (d.onHp f).pins = d.pins := rfl
@[simp] theorem Device.onHp_sc (f : Hp → Hp) : (d.onHp f).sc = d.sc := rfl
@[simp] theorem Device.onHp_identity (f : Hp → Hp) : (d.onHp f).identity = d.identity := rfl
@[simp] theorem Device.onHp_clc (f : Hp → Hp) : (d.onHp f).clc = d.clc := rfl
@[simp] theorem Device.onHp_ftu (f : Hp → Hp) : (d.onHp f).ftu = d.ftu := rfl
@[simp] theorem Device.onHp_ltu (f : Hp → Hp) : (d.onHp f).ltu = d.ltu := rfl
@[simp] theorem Device.onHp_hp (f : Hp → Hp) : (d.onHp f).hp = f d.hp := rfl
@[simp] theorem Device.onHp_hcu (f : Hp → Hp) : (d.onHp f).hcu = d.hcu := rfl
@[simp] theorem Device.onHp_cu (f : Hp → Hp) : (d.onHp f).cu = d.cu := rfl
@[simp] theorem Device.onHp_lu (f : Hp → Hp) : (d.onHp f).lu = d.lu := rfl

/-! ### onHcu -/

@[simp] theorem Device.onHcu_clock (f : Hcu → Hcu) : (d.onHcu f).clock = d.clock := rfl
@[simp] theorem Device.onHcu_pins (f : Hcu → Hcu) : (d.onHcu f).pins = d.pins := rfl
@[simp] theorem Device.onHcu_sc (f : Hcu → Hcu) : (d.onHcu f).sc = d.sc := rfl
@[simp] theorem Device.onHcu_identity (f : Hcu → Hcu) : (d.onHcu f).identity = d.identity := rfl
@[simp] theorem Device.onHcu_clc (f : Hcu → Hcu) : (d.onHcu f).clc = d.clc := rfl
@[simp] theorem Device.onHcu_ftu (f : Hcu → Hcu) : (d.onHcu f).ftu = d.ftu := rfl
@[simp] theorem Device.onHcu_ltu (f : Hcu → Hcu) : (d.onHcu f).ltu = d.ltu := rfl
@[simp] theorem Device.onHcu_hp (f : Hcu → Hcu) : (d.onHcu f).hp = d.hp := rfl
@[simp] theorem Device.onHcu_hcu (f : Hcu → Hcu) : (d.onHcu f).hcu = f d.hcu := rfl
@[simp] theorem Device.onHcu_cu (f : Hcu → Hcu) : (d.onHcu f).cu = d.cu := rfl
@[simp] theorem Device.onHcu_lu (f : Hcu → Hcu) : (d.onHcu f).lu = d.lu := rfl

/-! ### onCu -/

@[simp] theorem Device.onCu_clock (f : Cu → Cu) : (d.onCu f).clock = d.clock := rfl
@[simp] theorem Device.onCu_pins (f : Cu → Cu) : (d.onCu f).pins = d.pins := rfl
@[simp] theorem Device.onCu_sc (f : Cu → Cu) : (d.onCu f).sc = d.sc := rfl
@[simp] theorem Device.onCu_identity (f : Cu → Cu) : (d.onCu f).identity = d.identity := rfl
@[simp] theorem Device.onCu_clc (f : Cu → Cu) : (d.onCu f).clc = d.clc := rfl
@[simp] theorem Device.onCu_ftu (f : Cu → Cu) : (d.onCu f).ftu = d.ftu := rfl
@[simp] theorem Device.onCu_ltu (f : Cu → Cu) : (d.onCu f).ltu = d.ltu := rfl
@[simp] theorem Device.onCu_hp (f : Cu → Cu) : (d.onCu f).hp = d.hp := rfl
@[simp] theorem Device.onCu_hcu (f : Cu → Cu) : (d.onCu f).hcu = d.hcu := rfl
@[simp] theorem Device.onCu_cu (f : Cu → Cu) : (d.onCu f).cu = f d.cu := rfl
@[simp] theorem Device.onCu_lu (f : Cu → Cu) : (d.onCu f).lu = d.lu := rfl

/-! ### onLu -/

@[simp] theorem Device.onLu_clock (f : Lu → Lu) : (d.onLu f).clock = d.clock := rfl
@[simp] theorem Device.onLu_pins (f : Lu → Lu) : (d.onLu f).pins = d.pins := rfl
@[simp] theorem Device.onLu_sc (f : Lu → Lu) : (d.onLu f).sc = d.sc := rfl
@[simp] theorem Device.onLu_identity (f : Lu → Lu) : (d.onLu f).identity = d.identity := rfl
@[simp] theorem Device.onLu_clc (f : Lu → Lu) : (d.onLu f).clc = d.clc := rfl
@[simp] theorem Device.onLu_ftu (f : Lu → Lu) : (d.onLu f).ftu = d.ftu := rfl
@[simp] theorem Device.onLu_ltu (f : Lu → Lu) : (d.onLu f).ltu = d.ltu := rfl
@[simp] theorem Device.onLu_hp (f : Lu → Lu) : (d.onLu f).hp = d.hp := rfl
@[simp] theorem Device.onLu_hcu (f : Lu → Lu) : (d.onLu f).hcu = d.hcu := rfl
@[simp] theorem Device.onLu_cu (f : Lu → Lu) : (d.onLu f).cu = d.cu := rfl
@[simp] theorem Device.onLu_lu (f : Lu → Lu) : (d.onLu f).lu = f d.lu := rfl

/-! ### onPins -/

@[simp] theorem Device.onPins_clock (f : Pins → Pins) : (d.onPins f).clock = d.clock := rfl
@[simp] theorem Device.onPins_pins (f : Pins → Pins) : (d.onPins f).pins = f d.pins := rfl
@[simp] theorem Device.onPins_sc (f : Pins → Pins) : (d.onPins f).sc = d.sc := rfl
@[simp] theorem Device.onPins_identity (f : Pins → Pins) : (d.onPins f).identity = d.identity := rfl
@[simp] theorem Device.onPins_clc (f : Pins → Pins) : (d.onPins f).clc = d.clc := rfl
@[simp] theorem Device.onPins_ftu (f : Pins → Pins) : (d.onPins f).ftu = d.ftu := rfl
@[simp] theorem Device.onPins_ltu (f : Pins → Pins) : (d.onPins f).ltu = d.ltu := rfl
@[simp] theorem Device.onPins_hp (f : Pins → Pins) : (d.onPins f).hp = d.hp := rfl
@[simp] theorem Device.onPins_hcu (f : Pins → Pins) : (d.onPins f).hcu = d.hcu := rfl
@[simp] theorem Device.onPins_cu (f : Pins → Pins) : (d.onPins f).cu = d.cu := rfl
@[simp] theorem Device.onPins_lu (f : Pins → Pins) : (d.onPins f).lu = d.lu := rfl

/-! ### setIdentity -/

@[simp] theorem Device.setIdentity_clock (i : Option CoachIdentity) : (d.setIdentity i).clock = d.clock := rfl
@[simp] theorem Device.setIdentity_pins (i : Option CoachIdentity) : (d.setIdentity i).pins = d.pins := rfl
@[simp] theorem Device.setIdentity_sc (i : Option CoachIdentity) : (d.setIdentity i).sc = d.sc := rfl
@[simp] theorem Device.setIdentity_identity (i : Option CoachIdentity) : (d.setIdentity i).identity = i := rfl
@[simp] theorem Device.setIdentity_clc (i : Option CoachIdentity) : (d.setIdentity i).clc = d.clc := rfl
@[simp] theorem Device.setIdentity_ftu (i : Option CoachIdentity) : (d.setIdentity i).ftu = d.ftu := rfl
@[simp] theorem Device.setIdentity_ltu (i : Option CoachIdentity) : (d.setIdentity i).ltu = d.ltu := rfl
@[simp] theorem Device.setIdentity_hp (i : Option CoachIdentity) : (d.setIdentity i).hp = d.hp := rfl
@[simp] theorem Device.setIdentity_hcu (i : Option CoachIdentity) : (d.setIdentity i).hcu = d.hcu := rfl
@[simp] theorem Device.setIdentity_cu (i : Option CoachIdentity) : (d.setIdentity i).cu = d.cu := rfl
@[simp] theorem Device.setIdentity_lu (i : Option CoachIdentity) : (d.setIdentity i).lu = d.lu := rfl

/-! ### reach -/

@[simp] theorem Device.reach_clock (t : Nat) : (d.reach t).clock = max d.clock t := rfl
@[simp] theorem Device.reach_pins (t : Nat) : (d.reach t).pins = d.pins := rfl
@[simp] theorem Device.reach_sc (t : Nat) : (d.reach t).sc = d.sc := rfl
@[simp] theorem Device.reach_identity (t : Nat) : (d.reach t).identity = d.identity := rfl
@[simp] theorem Device.reach_clc (t : Nat) : (d.reach t).clc = d.clc := rfl
@[simp] theorem Device.reach_ftu (t : Nat) : (d.reach t).ftu = d.ftu := rfl
@[simp] theorem Device.reach_ltu (t : Nat) : (d.reach t).ltu = d.ltu := rfl
@[simp] theorem Device.reach_hp (t : Nat) : (d.reach t).hp = d.hp := rfl
@[simp] theorem Device.reach_hcu (t : Nat) : (d.reach t).hcu = d.hcu := rfl
@[simp] theorem Device.reach_cu (t : Nat) : (d.reach t).cu = d.cu := rfl
@[simp] theorem Device.reach_lu (t : Nat) : (d.reach t).lu = d.lu := rfl

/-! ### The machine -/

@[simp] theorem State.onDevice_dev (s : State) (f : Device → Device) : (s.onDevice f).dev = f s.dev := rfl
@[simp] theorem State.onDevice_pending (s : State) (f : Device → Device) : (s.onDevice f).pending = s.pending := rfl
theorem State.did_eq (s : State) (f : Device → Device) : s.did f = .next (s.onDevice f) := rfl

/-- An expiry with its timer running is its effect at the deadline. -/
theorem Device.onExpiry_some (t : Nat) (f : Device → Device) : d.onExpiry (some t) f = f (d.reach t) := rfl

/-- An expiry with its timer stopped changes nothing (log entry 1). -/
theorem Device.onExpiry_none (f : Device → Device) : d.onExpiry none f = d := rfl

end Sys2Proof.Machine
end

