-- ==== Sys2Proof/Laws/Core.lean ====
section
/-! SUPPORT. What no following-up of an event writes: FollowedCore is reflexive and transitive, and every operation of
Machine/Settle.lean satisfies it, so `close` does (`FollowedCore.close`). -/

namespace Sys2Proof.Machine

namespace FollowedCore

/-! ### A preorder -/

theorem refl (d : Device) : FollowedCore d d where
  clock := rfl
  pins := rfl
  sc := rfl
  plug := ⟨rfl, rfl⟩
  probe := ⟨rfl, rfl⟩
  hcu := rfl
  lower := ⟨Nat.le_refl _, .inl rfl, .inl rfl⟩
  step := id
  plan := ⟨rfl, rfl⟩
  lu := rfl
  unbegun := id
  backoff := fun _ => rfl

theorem trans {a b c : Device} (h : FollowedCore a b) (k : FollowedCore b c) : FollowedCore a c where
  clock := k.clock.trans h.clock
  pins := k.pins.trans h.pins
  sc := by have e := k.sc; rw [h.sc] at e; exact e
  plug := ⟨k.plug.1.trans h.plug.1, k.plug.2.trans h.plug.2⟩
  probe := ⟨k.probe.1.trans h.probe.1, k.probe.2.trans h.probe.2⟩
  hcu := by have e := k.hcu; rw [h.hcu] at e; exact e
  lower := by
    refine ⟨k.lower.1.trans h.lower.1, ?_, ?_⟩
    · rcases k.lower.2.1 with e | e
      · rw [e]; exact h.lower.2.1
      · exact .inr e
    · rcases k.lower.2.2 with e | e
      · rw [e]; exact h.lower.2.2
      · exact .inr e
  step := fun u => k.step (h.step u)
  plan := ⟨k.plan.1.trans h.plan.1, k.plan.2.trans h.plan.2⟩
  lu := by have e := k.lu; rw [h.lu] at e; exact e
  unbegun := fun u => k.unbegun (h.unbegun u)
  backoff := fun u => by
    have e := h.backoff u
    rw [k.backoff (by rw [e]; exact u), e]

variable (d : Device)

/-! ### Updates of one block -/

theorem onLtu (f : Ltu → Ltu) : FollowedCore d (d.onLtu f) := { refl d with }

theorem onFtu (f : Ftu → Ftu) : FollowedCore d (d.onFtu f) := { refl d with }

theorem setIdentity (i : Option CoachIdentity) : FollowedCore d (d.setIdentity i) := { refl d with }

theorem onCu {f : Cu → Cu} (h : (f d.cu).plan = d.cu.plan ∧ (f d.cu).holdLanes = d.cu.holdLanes) :
    FollowedCore d (d.onCu f) := { refl d with plan := h }

theorem onClc {f : Clc → Clc} (h : (f d.clc).plug = d.clc.plug ∧ (f d.clc).plugFilter = d.clc.plugFilter) :
    FollowedCore d (d.onClc f) := { refl d with plug := h }

theorem onHp {f : Hp → Hp} (h : (f d.hp).toInUse = d.hp.toInUse ∧ (f d.hp).probeLast = d.hp.probeLast) :
    FollowedCore d (d.onHp f) := { refl d with probe := h }

theorem onSc {f : Sc → Sc}
    (h : f d.sc = { d.sc with phase := (f d.sc).phase, heat := (f d.sc).heat, lamp := (f d.sc).lamp,
                              fault := (f d.sc).fault }) : FollowedCore d (d.onSc f) := { refl d with sc := h }

theorem onHcu {f : Hcu → Hcu}
    (h : f d.hcu =
      { d.hcu with
        stage := (f d.hcu).stage, grant := (f d.hcu).grant, target := (f d.hcu).target, raise := (f d.hcu).raise,
        window := (f d.hcu).window, settling := (f d.hcu).settling, faultLockout := (f d.hcu).faultLockout,
        monitor := (f d.hcu).monitor, monitorTimer := (f d.hcu).monitorTimer, pull := (f d.hcu).pull,
        pullTimer := (f d.hcu).pullTimer, energy := (f d.hcu).energy, sat := (f d.hcu).sat })
    (l : (f d.hcu).stage ≤ d.hcu.stage ∧ ((f d.hcu).grant = d.hcu.grant ∨ (f d.hcu).grant = 0)
      ∧ ((f d.hcu).raise = d.hcu.raise ∨ (f d.hcu).raise = none))
    (r : (∀ r, d.hcu.raise = some r → r ≤ d.hcu.stage + 1) →
      ∀ r, (f d.hcu).raise = some r → r ≤ (f d.hcu).stage + 1) :
    FollowedCore d (d.onHcu f) := { refl d with hcu := h, lower := l, step := r }

/-- An update of the HCU that touches neither stage nor grant nor raise. -/
theorem onHcu_same {f : Hcu → Hcu}
    (h : f d.hcu =
      { d.hcu with
        target := (f d.hcu).target,
        window := (f d.hcu).window, settling := (f d.hcu).settling, faultLockout := (f d.hcu).faultLockout,
        monitor := (f d.hcu).monitor, monitorTimer := (f d.hcu).monitorTimer, pull := (f d.hcu).pull,
        pullTimer := (f d.hcu).pullTimer, energy := (f d.hcu).energy, sat := (f d.hcu).sat }) :
    FollowedCore d (d.onHcu f) := by
  refine onHcu d ?_ ?_ ?_
  · rw [h]
  · rw [h]; exact ⟨Nat.le_refl _, .inl rfl, .inl rfl⟩
  · rw [h]; exact id

/-! ### Shared operations -/

theorem requestNotice : FollowedCore d d.requestNotice := by
  unfold Device.requestNotice
  split
  · exact { refl d with lu := rfl, unbegun := fun _ => rfl }
  · exact refl d

theorem touchPhase : FollowedCore d d.touchPhase := (onSc d rfl).trans (requestNotice _)

theorem touchHeat : FollowedCore d d.touchHeat := onSc d rfl

theorem touchLamp : FollowedCore d d.touchLamp := onSc d rfl

theorem markLamp (before d : Device) : FollowedCore d (before.markLamp d) := by
  unfold Device.markLamp
  split
  · exact refl d
  · exact touchLamp d

theorem touchFault : FollowedCore d d.touchFault := onSc d rfl

theorem corroborate : FollowedCore d d.corroborate := onLtu d _

theorem takeMatch : FollowedCore d d.takeMatch := onCu d ⟨rfl, rfl⟩

theorem takeLockout : FollowedCore d d.takeLockout := onHcu_same d rfl

theorem takeBlocks : FollowedCore d d.takeBlocks := onCu d ⟨rfl, rfl⟩

theorem refresh : FollowedCore d d.refresh :=
  (takeMatch d).trans ((takeLockout _).trans ((corroborate _).trans (takeBlocks _)))

theorem handPhase (old new : Phase) : FollowedCore d (d.handPhase old new) := by
  unfold Device.handPhase
  refine (onLtu d _).trans ((onFtu _ _).trans ((onClc _ ?_).trans ((onHp _ ?_).trans ((onHcu_same _ ?_).trans
    (onSc _ ?_)))))
  · cases new <;> exact ⟨rfl, rfl⟩
  · cases new <;> exact ⟨rfl, rfl⟩
  · cases new <;> rfl
  · cases new <;> rfl

theorem dropIdentity (new : Phase) : FollowedCore d (d.dropIdentity new) := by
  unfold Device.dropIdentity
  split
  · exact setIdentity d _
  · exact refl d

/-- A change of phase other than the entry to DEPARTING, which consumes the plan. -/
theorem setPhase {new : Phase} (h : new ≠ .departing) : FollowedCore d (d.setPhase new) := by
  have e : d.setPhase new = ((d.cuPhase new).handPhase d.cu.phase new).dropIdentity new := by
    simp [Device.setPhase, h]
  rw [e]
  exact (onCu d ⟨by simp [h], rfl⟩).trans ((handPhase _ _ _).trans (dropIdentity _ _))

/-- The phase rules call for no move to DEPARTING. -/
theorem nextPhase_ne_departing {new : Phase} (h : d.nextPhase = some new) : new ≠ .departing := by
  rintro rfl
  unfold Device.nextPhase Device.fallBack at h
  repeat' split at h
  all_goals simp_all

theorem settlePhases (n : Nat) : FollowedCore d (d.settlePhases n) := by
  induction n generalizing d with
  | zero => exact refresh d
  | succ n ih =>
    unfold Device.settlePhases
    split
    · exact refresh d
    · next new h => exact (refresh d).trans ((setPhase _ (nextPhase_ne_departing _ h)).trans (ih _))

theorem forceClaim : FollowedCore d d.forceClaim := by
  unfold Device.forceClaim
  split
  · exact (onHp d ⟨rfl, rfl⟩).trans (onHcu _ rfl ⟨Nat.le_refl _, .inr rfl, .inl rfl⟩ id)
  · exact refl d

theorem keepRaise_eq (t : Nat) (r : Option Nat) : keepRaise t r = r ∨ keepRaise t r = none := by
  unfold keepRaise
  split
  · exact .inl rfl
  · split
    · exact .inl rfl
    · exact .inr rfl

theorem keepRaise_some {t s : Nat} {r : Option Nat} (h : keepRaise t r = some s) : r = some s ∧ s ≤ t := by
  unfold keepRaise at h
  split at h
  · cases h
  · split at h
    · cases h; exact ⟨rfl, ‹_›⟩
    · cases h

theorem capStage : FollowedCore d d.capStage := by
  refine onHcu d rfl ⟨Nat.min_le_left _ _, .inl rfl, keepRaise_eq _ _⟩ ?_
  intro h r e
  obtain ⟨e, l⟩ := keepRaise_some e
  have u := h r e
  show r ≤ min d.hcu.stage (min d.hcu.target d.targetStage) + 1
  omega

theorem takeCap : FollowedCore d d.takeCap := by
  refine onHcu d rfl ⟨Nat.min_le_left _ _, .inl rfl, keepRaise_eq _ _⟩ ?_
  intro h r e
  obtain ⟨e, l⟩ := keepRaise_some e
  have u := h r e
  show r ≤ min d.hcu.stage d.targetStage + 1
  omega

theorem hcuWindowRequest : FollowedCore d d.hcuWindowRequest := by
  unfold Device.hcuWindowRequest
  split
  · exact ((onHcu_same d rfl).trans (takeCap _)).trans (touchHeat _)
  · exact ((onHcu_same d rfl).trans (takeCap _)).trans (touchHeat _)

theorem hcuWindowRelease : FollowedCore d d.hcuWindowRelease := by
  unfold Device.hcuWindowRelease
  split
  · exact refl d
  · exact (onHcu_same d rfl).trans (touchHeat _)

theorem releaseWindow : FollowedCore d d.releaseWindow := by
  unfold Device.releaseWindow
  split
  · exact refl d
  · exact (onLtu d _).trans (hcuWindowRelease _)

theorem beginMeasurement : FollowedCore d d.beginMeasurement := by
  unfold Device.beginMeasurement
  split
  · exact refl d
  · exact onLtu d _

theorem limitEffective : FollowedCore d d.limitEffective := by
  unfold Device.limitEffective
  split
  · exact (onLtu d _).trans (beginMeasurement _)
  · exact refl d

theorem requestWindow : FollowedCore d d.requestWindow := by
  unfold Device.requestWindow
  dsimp only
  split
  · exact ((onLtu d _).trans (hcuWindowRequest _)).trans (limitEffective _)
  · exact (onLtu d _).trans (hcuWindowRequest _)

theorem startPass (pass : Pass) : FollowedCore d (d.startPass pass) := by
  unfold Device.startPass
  split
  · dsimp only
    split
    · exact (onLtu d _).trans (beginMeasurement _)
    · exact onLtu d _
    · exact (onLtu d _).trans (requestWindow _)
  · exact ((releaseWindow d).trans (onLtu _ _)).trans (beginMeasurement _)

theorem beginPass (kind : PassKind) (set : List Nat) : FollowedCore d (d.beginPass kind set) := by
  cases kind <;> exact (onLtu d _).trans (markLamp d _)

theorem servePass (kind : PassKind) : FollowedCore d (d.servePass kind) :=
  (onLtu d _).trans ((beginPass _ _ _).trans (startPass _ _))

theorem servePasses (n : Nat) : FollowedCore d (d.servePasses n) := by
  induction n generalizing d with
  | zero => exact refl d
  | succ n ih =>
    unfold Device.servePasses
    split
    · exact releaseWindow d
    · split
      · exact ((beginPass d _ _).trans ((releaseWindow _).trans (onLtu _ _))).trans (ih _)
      · exact servePass d _
    · exact refl d
    · split
      · split
        · exact (beginPass d _ _).trans (ih _)
        · exact (onLtu d _).trans (servePass _ _)
      · exact refl d

theorem dropPass : FollowedCore d d.dropPass := by
  unfold Device.dropPass Device.noteEnd
  exact (onLtu d _).trans (onLtu _ _)

theorem takeStop : FollowedCore d d.takeStop := by
  unfold Device.takeStop Device.stopPass
  split
  · dsimp only
    split
    · exact (dropPass d).trans (releaseWindow _)
    · exact dropPass d
  · exact refl d

theorem runLamps : FollowedCore d d.runLamps := (takeStop d).trans (servePasses _ _)

theorem offerRead (r : Request) : FollowedCore d (d.offerRead r) := by
  unfold Device.offerRead
  split
  · exact onClc d ⟨rfl, rfl⟩
  · exact onFtu d _

theorem beginReadIfDue : FollowedCore d d.beginReadIfDue := by
  unfold Device.beginReadIfDue
  split
  · exact (onFtu d _).trans (offerRead _ _)
  · exact refl d

theorem serve : FollowedCore d (d.onClc Clc.serve) := by
  refine onClc d ?_
  unfold Clc.serve Clc.start
  repeat' split
  all_goals exact ⟨rfl, rfl⟩

theorem watchPower : FollowedCore d d.watchPower := by
  have h : FollowedCore d d.releasePull := by
    unfold Device.releasePull
    split
    · exact onHcu_same d rfl
    · exact refl d
  refine h.trans ?_
  show FollowedCore d.releasePull d.releasePull.followMonitor
  generalize d.releasePull = e
  unfold Device.followMonitor
  split
  · exact refl e
  · exact onHcu_same e rfl

theorem showAspect : FollowedCore d d.showAspect := by
  unfold Device.showAspect
  split
  · exact refl d
  · exact onCu d ⟨rfl, rfl⟩

theorem settle : FollowedCore d d.settle :=
  (settlePhases d 8).trans ((forceClaim _).trans ((capStage _).trans ((runLamps _).trans ((beginReadIfDue _).trans
    ((serve _).trans ((watchPower _).trans (showAspect _)))))))

theorem markChanges (before : Device) : FollowedCore d (before.markChanges d) := by
  unfold Device.markChanges
  have h1 : FollowedCore d (if d.samePhaseContent before then d else d.touchPhase) := by
    split
    · exact refl d
    · exact touchPhase d
  refine h1.trans ?_
  generalize (if d.samePhaseContent before then d else d.touchPhase) = e
  dsimp only
  have h2 : FollowedCore e (if before.sc.heat.records && !e.sameHeatContent before then e.touchHeat else e) := by
    split
    · exact touchHeat e
    · exact refl e
  refine h2.trans ?_
  generalize (if before.sc.heat.records && !e.sameHeatContent before then e.touchHeat else e) = f
  have h3 : FollowedCore f (if before.sc.lamp.records && !f.sameLampContent before then f.touchLamp else f) := by
    split
    · exact touchLamp f
    · exact refl f
  refine h3.trans ?_
  generalize (if before.sc.lamp.records && !f.sameLampContent before then f.touchLamp else f) = g
  split
  · exact touchFault g
  · exact refl g

theorem seekLine : FollowedCore d d.seekLine := by
  unfold Device.seekLine
  split
  · next h =>
    refine { refl d with lu := rfl, unbegun := id, backoff := ?_ }
    intro u
    simp only [Bool.and_eq_true, Option.isNone_iff_eq_none] at h
    rw [h.2] at u
    exact absurd u (by simp)
  · exact refl d

/-- What no following-up of an event writes. -/
theorem close (before after : Device) : FollowedCore after (Machine.close before after) :=
  (settle after).trans ((markChanges _ before).trans (seekLine _))

end FollowedCore

end Sys2Proof.Machine
end

