-- ==== Sys2Proof/Laws/Stays.lean ====
section
/-! SUPPORT. What a following-up keeps of the coach while no coupling begins (`Stays`), what it leaves when one does
(`Couples`). -/

namespace Sys2Proof.Machine

/-- What `Stays` compares of a channel. -/
def Channel.lasting (c : Channel) : Nat × LampStatus × Nat × Nat × Bool := (c.num, c.status, c.lastV, c.lastI, c.masked)

namespace Stays

/-! ### A preorder -/

theorem refl (d : Device) : Stays d d where
  identity := rfl
  clc := rfl
  exchange := fun _ => ⟨rfl, rfl, rfl⟩
  records := rfl
  ftu := ⟨rfl, rfl, rfl, rfl, rfl⟩
  reading := fun _ => ⟨rfl, rfl, rfl, rfl, rfl, rfl⟩
  channels := rfl
  timers := ⟨rfl, rfl, rfl⟩
  hp := ⟨rfl, .inl rfl⟩
  claim := id
  energy := ⟨rfl, rfl⟩
  phase := fun _ => rfl
  coach := id

theorem trans {a b c : Device} (h : Stays a b) (k : Stays b c) : Stays a c where
  identity := k.identity.trans h.identity
  clc := by have e := k.clc; rw [h.clc] at e; exact e
  exchange := fun u => by
    obtain ⟨e1, e2, e3⟩ := h.exchange u
    obtain ⟨k1, k2, k3⟩ := k.exchange (by rw [e1]; exact u)
    exact ⟨k1.trans e1, k2.trans e2, k3.trans e3⟩
  records := k.records.trans h.records
  ftu := by
    obtain ⟨e1, e2, e3, e4, e5⟩ := h.ftu
    obtain ⟨k1, k2, k3, k4, k5⟩ := k.ftu
    exact ⟨k1.trans e1, k2.trans e2, k3.trans e3, k4.trans e4, k5.trans e5⟩
  reading := fun u => by
    obtain ⟨e1, e2, e3, e4, e5, e6⟩ := h.reading u
    obtain ⟨k1, k2, k3, k4, k5, k6⟩ := k.reading (by rw [e1]; exact u)
    exact ⟨k1.trans e1, k2.trans e2, k3.trans e3, k4.trans e4, k5.trans e5, k6.trans e6⟩
  channels := k.channels.trans h.channels
  timers := ⟨k.timers.1.trans h.timers.1, k.timers.2.1.trans h.timers.2.1, k.timers.2.2.trans h.timers.2.2⟩
  hp := by
    refine ⟨?_, ?_⟩
    · have e := k.hp.1
      rw [h.hp.1] at e
      exact e
    · rcases k.hp.2 with e | e
      · rw [e]; exact h.hp.2
      · exact .inr e
  claim := fun u => k.claim (h.claim u)
  energy := ⟨k.energy.1.trans h.energy.1, k.energy.2.trans h.energy.2⟩
  phase := fun u => by
    have e := h.phase u
    rw [k.phase (by rw [e]; exact u), e]
  coach := fun u => k.coach (h.coach u)

variable (d : Device)

/-! ### Updates of one block -/

theorem onSc (f : Sc → Sc) : Stays d (d.onSc f) := { refl d with }

theorem onLu (f : Lu → Lu) : Stays d (d.onLu f) := { refl d with }

theorem onHcu {f : Hcu → Hcu}
    (h : (f d.hcu).energy = d.hcu.energy ∧ (f d.hcu).sat = d.hcu.sat ∧ (f d.hcu).grant = d.hcu.grant) :
    Stays d (d.onHcu f) :=
  { refl d with energy := ⟨h.1, h.2.1⟩, claim := fun u => by show (f d.hcu).grant ≤ _; rw [h.2.2]; exact u }

theorem onCu {f : Cu → Cu}
    (h : (d.cu.phase = .vacant ∨ d.cu.phase = .departing) → (f d.cu).phase = d.cu.phase)
    (k : d.cu.phase.identified = true → (f d.cu).phase.identified = true) :
    Stays d (d.onCu f) := { refl d with phase := h, coach := k }

theorem onHp {f : Hp → Hp} (h : f d.hp = d.hp) : Stays d (d.onHp f) :=
  { refl d with hp := by rw [Device.onHp_hp, h]; exact ⟨rfl, .inl rfl⟩, claim := by rw [Device.onHp_hp, h]; exact id }

theorem onLtu {f : Ltu → Ltu} (h : (f d.ltu).channels.map Channel.lasting = d.ltu.channels.map Channel.lasting)
    (t : (f d.ltu).retestTimer = d.ltu.retestTimer ∧ (f d.ltu).ageTimer = d.ltu.ageTimer
      ∧ (f d.ltu).signalTimer = d.ltu.signalTimer) : Stays d (d.onLtu f) :=
  { refl d with channels := h, timers := t }

theorem map_lasting {f : Channel → Channel} (h : ∀ c, (f c).lasting = c.lasting) (l : List Channel) :
    (l.map f).map Channel.lasting = l.map Channel.lasting := by
  rw [List.map_map]
  exact List.map_congr_left fun c _ => h c

/-! ### Shared operations -/

theorem requestNotice : Stays d d.requestNotice := by
  unfold Device.requestNotice
  split
  · exact onLu d _
  · exact refl d

theorem touchHeat : Stays d d.touchHeat := onSc d _

theorem markLamp (before d : Device) : Stays d (before.markLamp d) := by
  unfold Device.markLamp
  split
  · exact refl d
  · exact onSc d _

theorem corroborate : Stays d d.corroborate := by
  refine onLtu d (map_lasting ?_ _) ⟨rfl, rfl, rfl⟩
  intro c
  unfold Channel.corroborated
  repeat' split
  all_goals rfl

theorem takeMatch : Stays d d.takeMatch := onCu d (fun _ => rfl) id

theorem takeLockout : Stays d d.takeLockout := onHcu d ⟨rfl, rfl, rfl⟩

theorem takeBlocks : Stays d d.takeBlocks := onCu d (fun _ => rfl) id

theorem refresh : Stays d d.refresh :=
  (takeMatch d).trans ((takeLockout _).trans ((corroborate _).trans (takeBlocks _)))

theorem leavePrepared (ltu : Ltu) (old new : Phase) (h : new.tornDown = false) :
    (ltu.onPhase old new).channels = ltu.channels ∧ (ltu.onPhase old new).retestTimer = ltu.retestTimer
      ∧ (ltu.onPhase old new).ageTimer = ltu.ageTimer ∧ (ltu.onPhase old new).signalTimer = ltu.signalTimer := by
  cases new <;> cases old <;> first | exact ⟨rfl, rfl, rfl, rfl⟩ | simp [Phase.tornDown] at h

/-- A move from a phase with a coach to one with an identified coach. -/
theorem setPhase {new : Phase} (h : new.identified = true) (w : d.cu.phase.withCoach = true) :
    Stays d (d.setPhase new) := by
  have nd : new ≠ .departing := by rintro rfl; simp [Phase.identified] at h
  have nt : new.tornDown = false := by cases new <;> simp_all [Phase.identified, Phase.tornDown]
  have e : d.setPhase new = (d.cuPhase new).handPhase d.cu.phase new := by
    simp [Device.setPhase, Device.dropIdentity, nd, nt]
  rw [e]
  have c : Stays d (d.cuPhase new) := onCu d (fun u => by
    rcases u with u | u <;> rw [u] at w <;> simp [Phase.withCoach] at w) fun _ => h
  refine c.trans ?_
  generalize d.cuPhase new = f
  have l := leavePrepared f.ltu d.cu.phase new nt
  have k : Stays f (f.onLtu fun ltu => ltu.onPhase d.cu.phase new) := onLtu f (by rw [l.1]) l.2
  refine k.trans ?_
  unfold Device.handPhase
  generalize (f.onLtu fun ltu => ltu.onPhase d.cu.phase new) = g
  have p : new = .coupled ∨ new = .preparing ∨ new = .ready ∨ new = .clearing ∨ new = .cleared := by
    cases new <;> simp_all [Phase.identified]
  have q : (g.ftu.onPhase d.cu.phase new) = g.ftu ∨ (g.ftu.onPhase d.cu.phase new) = { g.ftu with reread := true } := by
    rcases p with rfl | rfl | rfl | rfl | rfl <;> simp only [Ftu.onPhase] <;> first | tauto | (split <;> tauto)
  have r : Stays g (g.onFtu fun ftu => ftu.onPhase d.cu.phase new) := by
    rcases q with q | q
    · exact { refl g with
        records := by simp [q], ftu := by simp [q], reading := by simp [q] }
    · exact { refl g with
        records := by simp [q], ftu := by simp [q], reading := by simp [q] }
  refine r.trans ?_
  generalize (g.onFtu fun ftu => ftu.onPhase d.cu.phase new) = i
  have s1 : Stays i (i.onClc fun clc => clc.onPhase new) := by
    rcases p with rfl | rfl | rfl | rfl | rfl <;> exact { refl i with }
  refine s1.trans ?_
  generalize (i.onClc fun clc => clc.onPhase new) = j
  have s2 : Stays j (j.onHp fun hp => hp.onPhase new) := by
    refine onHp j ?_
    simp [Hp.onPhase, nt]
  refine s2.trans ?_
  generalize (j.onHp fun hp => hp.onPhase new) = m
  refine Stays.trans (b := m.onHcu fun hcu => hcu.onPhase new) (onHcu m ?_) (onSc _ _)
  rcases p with rfl | rfl | rfl | rfl | rfl <;> exact ⟨rfl, rfl, rfl⟩

/-- The phase rules move a bay only from a phase with a coach to one with an identified coach, unless coupling
begins. -/
theorem nextPhase_identified {new : Phase} (h : d.nextPhase = some new) (n : d.coupleNow = false) :
    new.identified = true ∧ d.cu.phase.withCoach = true := by
  unfold Device.nextPhase Device.fallBack at h
  simp only [n] at h
  repeat' split at h
  all_goals (try cases h)
  all_goals (constructor <;> simp_all [Phase.identified, Phase.withCoach])

theorem refresh_coupleNow : d.refresh.coupleNow = d.coupleNow := rfl

@[simp] theorem setPhase_phase (new : Phase) : (d.setPhase new).cu.phase = new := by
  unfold Device.setPhase Device.dropIdentity
  cases new <;> rfl

theorem not_coupleNow {new : Phase} (h : new.identified = true) : (d.setPhase new).coupleNow = false := by
  unfold Device.coupleNow
  rw [setPhase_phase]
  cases new <;> simp_all [Phase.identified]

theorem settlePhases (n : Nat) (h : d.coupleNow = false) : Stays d (d.settlePhases n) := by
  induction n generalizing d with
  | zero => exact refresh d
  | succ n ih =>
    unfold Device.settlePhases
    split
    · exact refresh d
    · next new e =>
      obtain ⟨i, w⟩ := nextPhase_identified _ e (by rw [refresh_coupleNow]; exact h)
      exact (refresh d).trans ((setPhase _ i w).trans (ih _ (not_coupleNow _ i)))

theorem forceClaim : Stays d d.forceClaim := by
  unfold Device.forceClaim
  split
  · exact { refl d with hp := ⟨rfl, .inr rfl⟩, claim := fun _ => Nat.le_refl 0 }
  · exact refl d

theorem capStage : Stays d d.capStage := onHcu d ⟨rfl, rfl, rfl⟩

theorem takeCap : Stays d d.takeCap := onHcu d ⟨rfl, rfl, rfl⟩

theorem hcuWindowRequest : Stays d d.hcuWindowRequest := by
  unfold Device.hcuWindowRequest
  split
  · exact ((onHcu d ⟨rfl, rfl, rfl⟩).trans (takeCap _)).trans (touchHeat _)
  · exact ((onHcu d ⟨rfl, rfl, rfl⟩).trans (takeCap _)).trans (touchHeat _)

theorem hcuWindowRelease : Stays d d.hcuWindowRelease := by
  unfold Device.hcuWindowRelease
  split
  · exact refl d
  · exact (onHcu d ⟨rfl, rfl, rfl⟩).trans (touchHeat _)

theorem releaseWindow : Stays d d.releaseWindow := by
  unfold Device.releaseWindow
  split
  · exact refl d
  · exact (onLtu d rfl ⟨rfl, rfl, rfl⟩).trans (hcuWindowRelease _)

theorem beginMeasurement : Stays d d.beginMeasurement := by
  unfold Device.beginMeasurement
  split
  · exact refl d
  · exact onLtu d rfl ⟨rfl, rfl, rfl⟩

theorem limitEffective : Stays d d.limitEffective := by
  unfold Device.limitEffective
  split
  · exact (onLtu d rfl ⟨rfl, rfl, rfl⟩).trans (beginMeasurement _)
  · exact refl d

theorem requestWindow : Stays d d.requestWindow := by
  unfold Device.requestWindow
  dsimp only
  split
  · exact ((onLtu d rfl ⟨rfl, rfl, rfl⟩).trans (hcuWindowRequest _)).trans (limitEffective _)
  · exact (onLtu d rfl ⟨rfl, rfl, rfl⟩).trans (hcuWindowRequest _)

theorem startPass (pass : Pass) : Stays d (d.startPass pass) := by
  unfold Device.startPass
  split
  · dsimp only
    split
    · exact (onLtu d rfl ⟨rfl, rfl, rfl⟩).trans (beginMeasurement _)
    · exact onLtu d rfl ⟨rfl, rfl, rfl⟩
    · exact (onLtu d rfl ⟨rfl, rfl, rfl⟩).trans (requestWindow _)
  · exact ((releaseWindow d).trans (onLtu _ rfl ⟨rfl, rfl, rfl⟩)).trans (beginMeasurement _)

theorem beginPass (kind : PassKind) (set : List Nat) : Stays d (d.beginPass kind set) := by
  have h : Stays d (d.takeKind kind set) := by
    unfold Device.takeKind
    cases kind
    · exact onLtu d rfl ⟨rfl, rfl, rfl⟩
    · exact onLtu d rfl ⟨rfl, rfl, rfl⟩
    · refine onLtu d (map_lasting ?_ _) ⟨rfl, rfl, rfl⟩
      intro c
      unfold Channel.beginFull
      split <;> rfl
  exact h.trans (markLamp d _)

theorem servePass (kind : PassKind) : Stays d (d.servePass kind) :=
  (onLtu d rfl ⟨rfl, rfl, rfl⟩).trans ((beginPass _ _ _).trans (startPass _ _))

theorem unbegin (pass : Pass) : Stays d (d.unbegin pass) := by
  unfold Device.unbegin Ltu.unbegin
  cases pass.kind
  · exact onLtu d rfl ⟨rfl, rfl, rfl⟩
  · exact onLtu d rfl ⟨rfl, rfl, rfl⟩
  · refine onLtu d (map_lasting ?_ _) ⟨rfl, rfl, rfl⟩
    intro c
    unfold Channel.restored
    repeat' split
    all_goals rfl

theorem servePasses (n : Nat) : Stays d (d.servePasses n) := by
  induction n generalizing d with
  | zero => exact refl d
  | succ n ih =>
    unfold Device.servePasses
    split
    · exact releaseWindow d
    · split
      · exact ((beginPass d _ _).trans ((releaseWindow _).trans (onLtu _ rfl ⟨rfl, rfl, rfl⟩))).trans (ih _)
      · exact servePass d _
    · exact refl d
    · split
      · split
        · exact (beginPass d _ _).trans (ih _)
        · exact (unbegin d _).trans (servePass _ _)
      · exact refl d

theorem dropPass : Stays d d.dropPass := by
  unfold Device.dropPass Device.noteEnd
  exact (onLtu d rfl ⟨rfl, rfl, rfl⟩).trans (onLtu _ rfl ⟨rfl, rfl, rfl⟩)

theorem takeStop : Stays d d.takeStop := by
  unfold Device.takeStop Device.stopPass
  split
  · dsimp only
    split
    · exact (dropPass d).trans (releaseWindow _)
    · exact dropPass d
  · exact refl d

theorem runLamps : Stays d d.runLamps := (takeStop d).trans (servePasses _ _)

theorem beginReadIfDue : Stays d d.beginReadIfDue := by
  unfold Device.beginReadIfDue
  split
  · next h =>
    have u : d.clc.linkUp = true ∧ d.ftu.read.isNone = true := by
      unfold Device.readBegins at h
      simp only [Bool.and_eq_true] at h
      exact ⟨h.2, h.1.1.2⟩
    have e : (d.onFtu fun ftu => ftu.begin d.clock).offerRead (.openRead 0 32)
        = (d.onFtu fun ftu => ftu.begin d.clock).onClc fun clc => { clc with pendingRead := some (.openRead 0 32) } := by
      simp [Device.offerRead, u.1]
    rw [e]
    have r : (d.ftu.begin d.clock).table.map FaultEntry.record = d.ftu.table.map FaultEntry.record := by
      unfold Ftu.begin
      rw [List.map_map]
      exact List.map_congr_left fun _ _ => rfl
    exact { refl d with
      clc := rfl, exchange := fun _ => ⟨rfl, rfl, rfl⟩, records := r, ftu := ⟨rfl, rfl, rfl, rfl, rfl⟩,
      reading := fun v => by rw [Option.isNone_iff_eq_none] at u; rw [u.2] at v; exact absurd v (by simp) }
  · exact refl d

theorem serve_eq (clc : Clc) : clc.serve =
    { clc with
      exchange := clc.serve.exchange, pendingId := clc.serve.pendingId, pendingPoll := clc.serve.pendingPoll,
      pendingRead := clc.serve.pendingRead } := by
  unfold Clc.serve
  split
  · rfl
  · split
    · rfl
    · split
      · rfl
      · cases clc.pendingRead <;> rfl

theorem serve : Stays d (d.onClc Clc.serve) := by
  refine { refl d with clc := serve_eq d.clc, exchange := ?_ }
  · intro u
    have e : Clc.serve d.clc = d.clc := by simp [Clc.serve, u]
    rw [Device.onClc_clc, e]
    exact ⟨rfl, rfl, rfl⟩

theorem watchPower : Stays d d.watchPower := by
  have h : Stays d d.releasePull := by
    unfold Device.releasePull
    split
    · exact onHcu d ⟨rfl, rfl, rfl⟩
    · exact refl d
  refine h.trans ?_
  show Stays d.releasePull d.releasePull.followMonitor
  generalize d.releasePull = e
  unfold Device.followMonitor
  split
  · exact refl e
  · exact onHcu e ⟨rfl, rfl, rfl⟩

theorem showAspect : Stays d d.showAspect := by
  unfold Device.showAspect
  split
  · exact refl d
  · exact onCu d (fun _ => rfl) id

/-- What comes after the phases keeps the coach's state in either case. -/
theorem afterPhases :
    Stays d (d.forceClaim.capStage.runLamps.beginReadIfDue.onClc Clc.serve).watchPower.showAspect :=
  (forceClaim d).trans ((capStage _).trans ((runLamps _).trans ((beginReadIfDue _).trans
    ((serve _).trans ((watchPower _).trans (showAspect _))))))

theorem settle (h : d.coupleNow = false) : Stays d d.settle := (settlePhases d 8 h).trans (afterPhases _)

theorem touchPhase : Stays d d.touchPhase := (onSc d _).trans (requestNotice _)

theorem markChanges (before : Device) : Stays d (before.markChanges d) := by
  unfold Device.markChanges
  have h1 : Stays d (if d.samePhaseContent before then d else d.touchPhase) := by
    split
    · exact refl d
    · exact touchPhase d
  refine h1.trans ?_
  generalize (if d.samePhaseContent before then d else d.touchPhase) = e
  dsimp only
  have h2 : Stays e (if before.sc.heat.records && !e.sameHeatContent before then e.touchHeat else e) := by
    split
    · exact touchHeat e
    · exact refl e
  refine h2.trans ?_
  generalize (if before.sc.heat.records && !e.sameHeatContent before then e.touchHeat else e) = f
  have h3 : Stays f (if before.sc.lamp.records && !f.sameLampContent before then f.touchLamp else f) := by
    split
    · exact onSc f _
    · exact refl f
  refine h3.trans ?_
  generalize (if before.sc.lamp.records && !f.sameLampContent before then f.touchLamp else f) = g
  split
  · exact onSc g _
  · exact refl g

theorem seekLine : Stays d d.seekLine := by
  unfold Device.seekLine
  split
  · exact onLu d _
  · exact refl d

/-- What a following-up keeps while no coupling begins. -/
theorem close (before after : Device) (h : after.coupleNow = false) : Stays after (Machine.close before after) :=
  (settle after h).trans ((markChanges _ before).trans (seekLine _))

end Stays

end Sys2Proof.Machine
end

