-- ==== Sys2Proof/Laws/Couples.lean ====
section
/-! SUPPORT. What a following-up leaves when coupling begins in it (`Couples`). -/

namespace Sys2Proof.Machine

/-- The coach channels are OFF and cleared. -/
def Ltu.coachOff (ltu : Ltu) : Prop := ∀ c ∈ ltu.channels, c.num ≤ 16 → c = Channel.off c.num

/-- A bay in COUPLING just entered, before the claim is forced and the arbiter looks (R28, R137). -/
structure JustCoupling (d : Device) : Prop where
  phase : d.cu.phase = .coupling
  identity : d.identity = none
  clc : d.clc = { Clc.reset d.clc.plugFilter with plug := d.clc.plug, pendingId := true }
  ftu : d.ftu = Ftu.reset
  channels : d.ltu.coachOff
  hp : d.hp = { Hp.reset with toInUse := d.hp.toInUse, probeLast := d.hp.probeLast }
  energy : d.hcu.energy = 0 ∧ d.hcu.sat = false ∧ d.hcu.window = .none
  cu : d.cu.matchState = .none ∧ d.cu.intent = .none ∧ d.cu.presence = none

namespace JustCoupling

variable {d : Device}

theorem coachOff_map {f : Channel → Channel} (n : ∀ c, (f c).num = c.num)
    (h : ∀ c : Channel, c.num ≤ 16 → c = Channel.off c.num → f c = c) {l : List Channel}
    (k : ∀ c ∈ l, c.num ≤ 16 → c = Channel.off c.num) : ∀ c ∈ l.map f, c.num ≤ 16 → c = Channel.off c.num := by
  intro c m u
  obtain ⟨e, me, rfl⟩ := List.mem_map.1 m
  rw [n] at u
  rw [n, h e u (k e me u)]
  exact k e me u

theorem tearDown_coachOff (ltu : Ltu) : ltu.tearDown.coachOff := by
  intro c m u
  obtain ⟨e, _, rfl⟩ := List.mem_map.1 (show c ∈ ltu.channels.map Channel.tornDown from m)
  unfold Channel.tornDown at u ⊢
  split
  · rfl
  · next h =>
    rw [if_neg h] at u
    simp [Channel.ofCoach] at h
    omega

/-- The coach channels right after the entry to COUPLING. -/
theorem setPhase_coachOff (d : Device) : (d.setPhase .coupling).ltu.coachOff := by
  have e : (d.setPhase .coupling).ltu.channels = d.ltu.channels.map Channel.tornDown := by
    show (d.ltu.onPhase d.cu.phase .coupling).channels = _
    cases d.cu.phase <;> rfl
  intro c m u
  rw [e] at m
  exact tearDown_coachOff d.ltu c m u

/-- Entry to COUPLING with the evaluations that follow it. -/
theorem enter (d : Device) : JustCoupling (d.setPhase .coupling).refresh where
  phase := rfl
  identity := rfl
  clc := rfl
  ftu := rfl
  channels := by
    refine coachOff_map (f := Channel.corroborated (d.setPhase .coupling).ftu) ?_ ?_ (setPhase_coachOff d)
    · intro c; unfold Channel.corroborated; repeat' split
      all_goals rfl
    · intro c _ e
      rw [e]
      simp [Channel.corroborated, Channel.joins, Channel.fitted, Channel.off]
  hp := rfl
  energy := ⟨rfl, rfl, rfl⟩
  cu := by
    refine ⟨?_, rfl, rfl⟩
    show (d.setPhase .coupling).evalMatch = .none
    unfold Device.evalMatch
    rw [show (d.setPhase .coupling).identity = none from rfl]
    cases (d.setPhase .coupling).cu.plan <;> rfl

theorem nextPhase_none (h : JustCoupling d) : d.nextPhase = none := by
  unfold Device.nextPhase
  rw [h.phase, h.identity]
  rfl

/-- The phase rules of an event in which coupling begins. -/
theorem settlePhases {d : Device} (c : d.coupleNow = true) (n : Nat) :
    d.settlePhases (n + 2) = (d.refresh.setPhase .coupling).refresh := by
  have e : d.refresh.nextPhase = some .coupling := by
    have k : d.refresh.coupleNow = true := c
    unfold Device.nextPhase
    unfold Device.coupleNow at k
    simp only [Bool.and_eq_true, Bool.or_eq_true, beq_iff_eq] at k
    rcases k.1.1 with p | p <;> rw [p] <;> simp [Device.coupleNow, p, k.1.2, k.2]
  rw [Device.settlePhases, e]
  show (d.refresh.setPhase .coupling).settlePhases (n + 1) = _
  rw [Device.settlePhases, nextPhase_none (enter _)]

/-- The claim is forced to 0, and grant and stage with it. -/
theorem forced (h : JustCoupling d) :
    JustCoupling d.forceClaim.capStage ∧ d.forceClaim.capStage.hcu.stage = 0 ∧ d.forceClaim.capStage.hcu.grant = 0 := by
  have f : d.claimForced = true := by simp [Device.claimForced, h.phase, Phase.prepared]
  have e : d.forceClaim = (d.onHp fun hp => { hp with q := 0 }).onHcu fun hcu => { hcu with grant := 0 } := by
    simp [Device.forceClaim, f]
  have t : d.forceClaim.targetStage = 0 := by
    rw [e]
    simp [Device.targetStage, Device.capZero, h.phase, Phase.prepared]
  refine ⟨⟨?_, ?_, ?_, ?_, ?_, ?_, ?_, ?_⟩, ?_, ?_⟩
  · rw [e]; exact h.phase
  · rw [e]; exact h.identity
  · rw [e]; exact h.clc
  · rw [e]; exact h.ftu
  · rw [e]; exact h.channels
  · rw [e]; show ({ d.hp with q := 0 } : Hp) = _; rw [h.hp]; rfl
  · rw [e]; exact h.energy
  · rw [e]; exact h.cu
  · show min _ (min _ d.forceClaim.targetStage) = 0
    rw [t]; simp
  · rw [e]; rfl

/-- Nothing but the LTU and the LAMP section changes when its passes are served in COUPLING: no pass holds a coach channel. -/
structure LampsOnly (d e : Device) : Prop where
  eq : ∃ ltu lamp, e = (d.onLtu fun _ => ltu).onSc fun sc => { sc with lamp := lamp }
  off : d.ltu.coachOff → e.ltu.coachOff

theorem LampsOnly.rfl' : LampsOnly d d := ⟨⟨d.ltu, d.sc.lamp, rfl⟩, id⟩

theorem LampsOnly.trans {a b c : Device} (h : LampsOnly a b) (k : LampsOnly b c) : LampsOnly a c := by
  obtain ⟨⟨l, n, rfl⟩, h2⟩ := h
  obtain ⟨⟨m, o, rfl⟩, k2⟩ := k
  exact ⟨⟨m, o, rfl⟩, fun u => k2 (h2 u)⟩

theorem LampsOnly.onLtu {f : Ltu → Ltu} (h : (f d.ltu).channels = d.ltu.channels) : LampsOnly d (d.onLtu f) :=
  ⟨⟨f d.ltu, d.sc.lamp, rfl⟩, fun u c m => u c (by rw [← h]; exact m)⟩

theorem LampsOnly.markLamp (before : Device) : LampsOnly d (before.markLamp d) := by
  unfold Device.markLamp
  split
  · exact .rfl'
  · exact ⟨⟨d.ltu, d.sc.lamp.touch, rfl⟩, id⟩

theorem releaseWindow (w : d.hcu.window = .none) : LampsOnly d d.releaseWindow := by
  unfold Device.releaseWindow
  split
  · exact .rfl'
  · have e : (d.onLtu fun ltu => { ltu with window := .none }).hcuWindowRelease
        = d.onLtu fun ltu => { ltu with window := .none } := by
      simp [Device.hcuWindowRelease, w]
    rw [e]
    exact .onLtu rfl

theorem beginMeasurement : LampsOnly d d.beginMeasurement := by
  unfold Device.beginMeasurement
  split
  · exact .rfl'
  · exact .onLtu rfl

theorem passSet_noCoach (p : d.cu.phase = .coupling) (kind : PassKind) : ∀ n ∈ d.passSet kind, 16 < n := by
  intro n m
  unfold Device.passSet at m
  obtain ⟨c, mc, rfl⟩ := List.mem_map.1 m
  have i := (List.mem_filter.1 mc).2
  cases kind <;> simp [Device.inPass, Device.inRetest, p, Phase.prepared, Channel.ofCoach] at i <;> grind

theorem beginPass (kind : PassKind) (set : List Nat) (s : ∀ n ∈ set, 16 < n) : LampsOnly d (d.beginPass kind set) := by
  have h : LampsOnly d (d.takeKind kind set) := by
    unfold Device.takeKind
    cases kind
    · exact .onLtu rfl
    · exact .onLtu rfl
    · refine ⟨⟨(d.takeKind .full set).ltu, d.sc.lamp, rfl⟩, fun u => ?_⟩
      refine coachOff_map (f := Channel.beginFull set) ?_ ?_ u
      · intro c; unfold Channel.beginFull; split <;> rfl
      · intro c v _
        unfold Channel.beginFull
        rw [if_neg]
        intro k
        have := s c.num (by simpa using k)
        omega
  exact h.trans (.markLamp d)

theorem startPass (w : d.hcu.window = .none) (pass : Pass) (s : ∀ n ∈ pass.channels, 16 < n) :
    LampsOnly d (d.startPass pass) := by
  have c : hasCoach pass.channels = false := by
    unfold hasCoach
    rw [List.any_eq_false]
    intro n m
    have := s n m
    simp
    omega
  unfold Device.startPass
  rw [if_neg (by simp [c])]
  exact (releaseWindow w).trans ((LampsOnly.onLtu rfl).trans beginMeasurement)

theorem servePass (kind : PassKind) (p : d.cu.phase = .coupling) (w : d.hcu.window = .none) :
    LampsOnly d (d.servePass kind) := by
  have h0 : LampsOnly d (d.onLtu fun ltu => { ltu with met := ⟨ltu.requests, ltu.channels, ltu.fullTimer⟩ }) := .onLtu rfl
  have h1 := h0.trans (beginPass kind _ (passSet_noCoach p kind))
  obtain ⟨l, n, e⟩ := h1.eq
  exact h1.trans (startPass (by rw [e]; exact w) _ (passSet_noCoach p kind))

theorem unbegin (pass : Pass) : LampsOnly d (d.unbegin pass) := by
  refine ⟨⟨d.ltu.unbegin d.cu.phase.prepared pass, d.sc.lamp, rfl⟩, fun u => ?_⟩
  show (d.ltu.unbegin d.cu.phase.prepared pass).coachOff
  unfold Ltu.unbegin
  cases pass.kind
  · exact u
  · exact u
  · refine coachOff_map (f := Channel.restored d.ltu.met pass.channels) ?_ ?_ u
    · intro c
      unfold Channel.restored
      repeat' split
      all_goals rfl
    · intro c v e
      unfold Channel.restored
      split
      · rfl
      · rw [if_neg]
        rw [e]
        simp [Channel.fitted, Channel.off]

theorem servePasses (n : Nat) (p : d.cu.phase = .coupling) (w : d.hcu.window = .none) :
    LampsOnly d (d.servePasses n) := by
  induction n generalizing d with
  | zero => exact .rfl'
  | succ n ih =>
    unfold Device.servePasses
    split
    · exact releaseWindow w
    · next kind _ _ =>
      split
      · have h1 : LampsOnly d (d.beginPass kind []) := beginPass kind [] (by simp)
        obtain ⟨l, n, e⟩ := h1.eq
        have h2 : LampsOnly (d.beginPass kind []) (d.beginPass kind []).releaseWindow :=
          releaseWindow (by rw [e]; exact w)
        have h3 : LampsOnly d (d.beginPass kind []).releaseWindow.noteEnd := (h1.trans h2).trans (.onLtu rfl)
        obtain ⟨m, o, e'⟩ := h3.eq
        exact h3.trans (ih (by rw [e']; exact p) (by rw [e']; exact w))
      · exact servePass kind p w
    · exact .rfl'
    · next pass kind _ _ =>
      split
      · split
        · have h1 : LampsOnly d (d.beginPass kind []) := beginPass kind [] (by simp)
          obtain ⟨l, n, e⟩ := h1.eq
          exact h1.trans (ih (by rw [e]; exact p) (by rw [e]; exact w))
        · have h1 := unbegin (d := d) pass
          obtain ⟨l, n, e⟩ := h1.eq
          exact h1.trans (servePass kind (by rw [e]; exact p) (by rw [e]; exact w))
      · exact .rfl'

theorem takeStop (w : d.hcu.window = .none) : LampsOnly d d.takeStop := by
  unfold Device.takeStop Device.stopPass
  split
  · have h1 : LampsOnly d d.dropPass := by
      unfold Device.dropPass Device.noteEnd
      exact (LampsOnly.onLtu rfl).trans (.onLtu rfl)
    dsimp only
    split
    · exact h1.trans (releaseWindow w)
    · exact h1
  · exact .rfl'

theorem runLamps (p : d.cu.phase = .coupling) (w : d.hcu.window = .none) : LampsOnly d d.runLamps := by
  have h := takeStop w
  obtain ⟨l, n, e⟩ := h.eq
  exact h.trans (servePasses 4 (by rw [e]; exact p) (by rw [e]; exact w))

theorem watchPower_eq (d : Device) : ∃ h : Hcu, d.watchPower = d.onHcu (fun _ => h) ∧ h.stage = d.hcu.stage
    ∧ h.grant = d.hcu.grant ∧ h.energy = d.hcu.energy ∧ h.sat = d.hcu.sat ∧ h.window = d.hcu.window := by
  have r : ∃ h : Hcu, d.releasePull = d.onHcu (fun _ => h) ∧ h.stage = d.hcu.stage ∧ h.grant = d.hcu.grant
      ∧ h.energy = d.hcu.energy ∧ h.sat = d.hcu.sat ∧ h.window = d.hcu.window := by
    unfold Device.releasePull
    split
    · exact ⟨_, rfl, rfl, rfl, rfl, rfl, rfl⟩
    · exact ⟨d.hcu, rfl, rfl, rfl, rfl, rfl, rfl⟩
  obtain ⟨h, e, h1⟩ := r
  show ∃ k : Hcu, d.releasePull.followMonitor = _ ∧ _
  rw [e]
  unfold Device.followMonitor
  split
  · exact ⟨h, rfl, h1⟩
  · exact ⟨_, rfl, h1⟩

theorem showAspect_eq (d : Device) : ∃ c : Cu, d.showAspect = d.onCu (fun _ => c) ∧ c.phase = d.cu.phase
    ∧ c.matchState = d.cu.matchState ∧ c.intent = d.cu.intent ∧ c.presence = d.cu.presence := by
  unfold Device.showAspect
  split
  · exact ⟨d.cu, rfl, rfl, rfl, rfl, rfl⟩
  · exact ⟨_, rfl, rfl, rfl, rfl, rfl⟩

/-- A following-up in which coupling begins. -/
theorem settle (c : d.coupleNow = true) : Couples d.settle := by
  unfold Device.settle
  rw [settlePhases c 6]
  have j := (enter d.refresh).forced
  generalize (d.refresh.setPhase .coupling).refresh.forceClaim.capStage = e at j
  obtain ⟨j, s, g⟩ := j
  have r := runLamps j.phase j.energy.2.2
  obtain ⟨⟨l, n, q⟩, o⟩ := r
  have off := o j.channels
  have b : e.runLamps.beginReadIfDue = e.runLamps := by
    unfold Device.beginReadIfDue Device.readBegins
    rw [q]
    simp [j.phase, Phase.identified]
  rw [b]
  have v : Clc.serve e.clc = { Clc.reset e.clc.plugFilter with
      plug := e.clc.plug, exchange := some ⟨.identify, 1, .sending, none⟩ } := by
    rw [j.clc]; rfl
  rw [q]
  obtain ⟨h, eh, h1, h2, h3, h4, h5⟩ := watchPower_eq (((e.onLtu fun _ => l).onSc fun sc => { sc with lamp := n }).onClc Clc.serve)
  rw [eh]
  obtain ⟨k, ek, k1, k2, k3, k4⟩ := showAspect_eq
    ((((e.onLtu fun _ => l).onSc fun sc => { sc with lamp := n }).onClc Clc.serve).onHcu fun _ => h)
  rw [ek]
  exact {
    phase := k1.trans j.phase
    identity := j.identity
    exchange := by show (Clc.serve e.clc).exchange = _; rw [v]
    clc := by show Clc.serve e.clc = { Clc.reset (Clc.serve e.clc).plugFilter with
                plug := (Clc.serve e.clc).plug, exchange := (Clc.serve e.clc).exchange }; rw [v]; rfl
    ftu := j.ftu
    channels := by rw [q] at off; exact off
    hp := j.hp
    stage := ⟨h1.trans s, h2.trans g, h3.trans j.energy.1, h4.trans j.energy.2.1, h5.trans j.energy.2.2⟩
    cu := ⟨k2.trans j.cu.1, k3.trans j.cu.2.1, k4.trans j.cu.2.2⟩ }

theorem onSc {e : Device} (h : Couples e) (f : Sc → Sc) : Couples (e.onSc f) := { h with }

theorem onLu {e : Device} (h : Couples e) (f : Lu → Lu) : Couples (e.onLu f) := { h with }

theorem markChanges (before : Device) {e : Device} (h : Couples e) : Couples (before.markChanges e) := by
  unfold Device.markChanges
  have h1 : Couples (if e.samePhaseContent before then e else e.touchPhase) := by
    split
    · exact h
    · have t : Couples (e.onSc fun sc => { sc with phase := sc.phase.touch }) := onSc h _
      unfold Device.touchPhase Device.requestNotice
      split
      · exact onLu t _
      · exact t
  generalize (if e.samePhaseContent before then e else e.touchPhase) = e1 at h1
  dsimp only
  have h2 : Couples (if before.sc.heat.records && !e1.sameHeatContent before then e1.touchHeat else e1) := by
    split
    · exact onSc h1 _
    · exact h1
  generalize (if before.sc.heat.records && !e1.sameHeatContent before then e1.touchHeat else e1) = e2 at h2
  have h3 : Couples (if before.sc.lamp.records && !e2.sameLampContent before then e2.touchLamp else e2) := by
    split
    · exact onSc h2 _
    · exact h2
  generalize (if before.sc.lamp.records && !e2.sameLampContent before then e2.touchLamp else e2) = e3 at h3
  split
  · exact onSc h3 _
  · exact h3

theorem seekLine {e : Device} (h : Couples e) : Couples e.seekLine := by
  unfold Device.seekLine
  split
  · exact onLu h _
  · exact h

/-- The end of an event in which coupling begins. -/
theorem close (before : Device) (c : d.coupleNow = true) : Couples (Machine.close before d) :=
  seekLine (markChanges before (settle c))

end JustCoupling

end Sys2Proof.Machine
end

