-- ==== Sys2Proof/Laws/Passes.lean ====
section
/-! SUPPORT. What the Lamp Test Unit does in a following-up: the unit and the HCU's window are all that its operations
write (`LampSide`), the HCU is lowered by a window request alone (`Lowers`), and the serving of the pending kinds is as
`PassesServed` says (`servePasses_served`). -/

namespace Sys2Proof.Machine

/-! ### What the operations of the LTU write -/

/-- `e` differs from `d` in the LTU, the HCU's stage, target, raise and window, and the HEAT and LAMP sections alone. -/
def LampSide (d e : Device) : Prop :=
  e = { d with
    sc := { d.sc with heat := e.sc.heat, lamp := e.sc.lamp }, ltu := e.ltu,
    hcu := { d.hcu with
      stage := e.hcu.stage, target := e.hcu.target, raise := e.hcu.raise, window := e.hcu.window,
      settling := e.hcu.settling } }

namespace LampSide

theorem refl (d : Device) : LampSide d d := rfl

theorem trans {a b c : Device} (h : LampSide a b) (k : LampSide b c) : LampSide a c := by
  unfold LampSide at *
  rw [h] at k
  exact k

variable (d : Device)

theorem onLtu (f : Ltu → Ltu) : LampSide d (d.onLtu f) := rfl

theorem touchHeat : LampSide d d.touchHeat := rfl

theorem markLamp (before : Device) : LampSide d (before.markLamp d) := by
  unfold Device.markLamp
  split <;> rfl

theorem capStage : LampSide d d.capStage := rfl

theorem takeCap : LampSide d d.takeCap := rfl

theorem hcuWindowRequest : LampSide d d.hcuWindowRequest := by
  unfold Device.hcuWindowRequest
  split <;> rfl

theorem hcuWindowRelease : LampSide d d.hcuWindowRelease := by
  unfold Device.hcuWindowRelease
  split <;> rfl

theorem releaseWindow : LampSide d d.releaseWindow := by
  unfold Device.releaseWindow
  split
  · rfl
  · exact (onLtu d _).trans (hcuWindowRelease _)

theorem beginMeasurement : LampSide d d.beginMeasurement := by
  unfold Device.beginMeasurement
  split <;> rfl

theorem limitEffective : LampSide d d.limitEffective := by
  unfold Device.limitEffective
  split
  · exact (onLtu d _).trans (beginMeasurement _)
  · rfl

theorem requestWindow : LampSide d d.requestWindow := by
  unfold Device.requestWindow
  dsimp only
  split
  · exact ((onLtu d _).trans (hcuWindowRequest _)).trans (limitEffective _)
  · exact (onLtu d _).trans (hcuWindowRequest _)

theorem startPass (pass : Pass) : LampSide d (d.startPass pass) := by
  unfold Device.startPass
  split
  · dsimp only
    split
    · exact (onLtu d _).trans (beginMeasurement _)
    · exact onLtu d _
    · exact (onLtu d _).trans (requestWindow _)
  · exact ((releaseWindow d).trans (onLtu _ _)).trans (beginMeasurement _)

theorem beginPass (kind : PassKind) (set : List Nat) : LampSide d (d.beginPass kind set) := by
  cases kind <;> exact (onLtu d _).trans (markLamp _ d)

theorem servePass (kind : PassKind) : LampSide d (d.servePass kind) :=
  (onLtu d _).trans ((beginPass _ _ _).trans (startPass _ _))

theorem servePasses (n : Nat) : LampSide d (d.servePasses n) := by
  induction n generalizing d with
  | zero => rfl
  | succ n ih =>
    unfold Device.servePasses
    split
    · exact releaseWindow d
    · split
      · exact ((beginPass d _ _).trans ((releaseWindow _).trans (onLtu _ _))).trans (ih _)
      · exact servePass d _
    · rfl
    · split
      · split
        · exact (beginPass d _ _).trans (ih _)
        · exact (onLtu d _).trans (servePass _ _)
      · rfl

theorem dropPass : LampSide d d.dropPass := rfl

theorem takeStop : LampSide d d.takeStop := by
  unfold Device.takeStop Device.stopPass
  split
  · dsimp only
    split
    · exact (dropPass d).trans (releaseWindow _)
    · exact dropPass d
  · rfl

theorem runLamps : LampSide d d.runLamps := (takeStop d).trans (servePasses _ _)

end LampSide

/-! ### What they do to the stage -/

/-- The HCU's stage, target and pending raise are as they were. -/
def SameStage (d e : Device) : Prop :=
  e.hcu.stage = d.hcu.stage ∧ e.hcu.target = d.hcu.target ∧ e.hcu.raise = d.hcu.raise

/-- A window released, or nothing. -/
def Releases (d e : Device) : Prop := SameStage d e ∧ (e.hcu.window = d.hcu.window ∨ e.hcu.window = .none)

/-- A window asked for: the HCU works the target out again and is lowered to it (R102, R110). -/
def Asks (d e : Device) : Prop :=
  e.hcu.window ≠ .none ∧ e.hcu.target = e.targetStage ∧ e.hcu.stage = min d.hcu.stage e.hcu.target
    ∧ e.hcu.raise = keepRaise e.hcu.target d.hcu.raise

/-- What the operations of the LTU do to the HCU: the window is asked for, or released or nothing (R110, R111). -/
def Lowers (asked : Bool) (d e : Device) : Prop := if asked = true then Asks d e else Releases d e

theorem Releases.refl (d : Device) : Releases d d := ⟨⟨rfl, rfl, rfl⟩, .inl rfl⟩

theorem Releases.trans {a b c : Device} (h : Releases a b) (k : Releases b c) : Releases a c := by
  obtain ⟨⟨s1, s2, s3⟩, w⟩ := h
  obtain ⟨⟨k1, k2, k3⟩, v⟩ := k
  refine ⟨⟨k1.trans s1, k2.trans s2, k3.trans s3⟩, ?_⟩
  rcases v with v | v
  · rw [v]; exact w
  · exact .inr v

theorem Releases.asks {a b c : Device} (h : Releases a b) (k : Asks b c) : Asks a c := by
  obtain ⟨v, k1, k2, k3⟩ := k
  obtain ⟨⟨s1, s2, s3⟩, _⟩ := h
  exact ⟨v, k1, by rw [k2, s1], by rw [k3, s3]⟩

theorem Releases.lowers {a b c : Device} {asked : Bool} (h : Releases a b) (k : Lowers asked b c) :
    Lowers asked a c := by
  unfold Lowers at *
  cases asked
  · exact h.trans k
  · exact h.asks k

/-- A device with the same HCU. -/
theorem Releases.of_hcu {d e : Device} (h : e.hcu = d.hcu) : Releases d e := by
  rw [Releases, SameStage, h]
  exact Releases.refl d

variable (d : Device)

theorem releases_releaseWindow : Releases d d.releaseWindow := by
  unfold Device.releaseWindow
  split
  · exact .refl d
  · unfold Device.hcuWindowRelease
    split
    · exact .refl d
    · exact ⟨⟨rfl, rfl, rfl⟩, .inr rfl⟩

theorem releases_beginMeasurement : Releases d d.beginMeasurement := by
  unfold Device.beginMeasurement
  split <;> exact .refl d

theorem releases_limitEffective : Releases d d.limitEffective := by
  unfold Device.limitEffective
  split
  · exact releases_beginMeasurement _
  · exact .refl d

theorem targetStage_limitEffective : d.limitEffective.targetStage = d.targetStage := by
  unfold Device.limitEffective Device.beginMeasurement
  split
  · split <;> rfl
  · rfl

theorem hcu_limitEffective : d.limitEffective.hcu = d.hcu := by
  unfold Device.limitEffective Device.beginMeasurement
  split
  · split <;> rfl
  · rfl

/-- What a window request does at the HCU (R102, R110). -/
theorem hcuWindowRequest_eq : Asks d d.hcuWindowRequest
    ∧ ((d.hcuWindowRequest.hcu.window = .effective)
      ∨ (d.hcuWindowRequest.hcu.window = .settling
        ∧ d.hcuWindowRequest.hcu.settling = some (d.clock + 100000))) := by
  unfold Device.hcuWindowRequest
  split
  · exact ⟨⟨by simp [Device.touchHeat, Device.takeCap, Hcu.lowerTo], rfl, rfl, rfl⟩, .inl rfl⟩
  · exact ⟨⟨by simp [Device.touchHeat, Device.takeCap, Hcu.lowerTo], rfl, rfl, rfl⟩, .inr ⟨rfl, rfl⟩⟩

theorem hcuWindowRequest_ltu : d.hcuWindowRequest.ltu = d.ltu := by
  unfold Device.hcuWindowRequest
  split <;> rfl

theorem hcuWindowRequest_clock : d.hcuWindowRequest.clock = d.clock := by
  unfold Device.hcuWindowRequest
  split <;> rfl

theorem hcuWindowRelease_ltu : d.hcuWindowRelease.ltu = d.ltu := by
  unfold Device.hcuWindowRelease
  split <;> rfl

/-! ### One operation at a time -/

/-- A release at the HCU (R111). -/
theorem hcuWindowRelease_window : d.hcuWindowRelease.hcu.window = .none := by
  unfold Device.hcuWindowRelease
  split
  · next h => exact h
  · rfl

/-- A release stops the settling time (R111). -/
theorem hcuWindowRelease_settling :
    d.hcuWindowRelease.hcu.settling = if d.hcu.window = .none then d.hcu.settling else none := by
  unfold Device.hcuWindowRelease
  split <;> rfl

/-- A release at the LTU (R76, R111). -/
theorem releaseWindow_eq : d.releaseWindow.ltu = { d.ltu with window := .none }
    ∧ d.releaseWindow.hcu.window = if d.ltu.window = .none then d.hcu.window else .none := by
  by_cases w : d.ltu.window = .none
  · have e : d.releaseWindow = d := by simp [Device.releaseWindow, w]
    rw [e, if_pos w, ← w]
    exact ⟨rfl, rfl⟩
  · have e : d.releaseWindow = (d.onLtu fun ltu => { ltu with window := .none }).hcuWindowRelease := by
      simp [Device.releaseWindow, w]
    rw [e, if_neg w, hcuWindowRelease_ltu, hcuWindowRelease_window]
    exact ⟨rfl, rfl⟩

/-- The measurement of the first remaining channel of a pass in flight begins (R65). -/
theorem beginMeasurement_eq {pass : Pass} (h : d.ltu.pass = some pass) :
    d.beginMeasurement = d.onLtu fun ltu =>
      { ltu with measuring := pass.remaining.head?, measureTimer := some (d.clock + 40000) } := by
  unfold Device.beginMeasurement
  rw [h]
  rfl

/-- The beginning of a pass without coach channels (R75, R76). -/
theorem startPass_noCoach (pass : Pass) (h : hasCoach pass.channels = false) :
    Releases d (d.startPass pass)
      ∧ (d.startPass pass).ltu = { d.ltu with
          pass := some pass, window := .none, measuring := pass.remaining.head?,
          measureTimer := some (d.clock + 40000) }
      ∧ (d.startPass pass).hcu.window = if d.ltu.window = .none then d.hcu.window else .none := by
  have e : d.startPass pass = (d.releaseWindow.onLtu fun ltu => { ltu with pass := some pass }).beginMeasurement := by
    unfold Device.startPass
    rw [if_neg (by simp [h])]
  have c : d.releaseWindow.clock = d.clock := by rw [LampSide.releaseWindow d]
  have r := releaseWindow_eq d
  rw [e, beginMeasurement_eq (pass := pass) _ rfl]
  refine ⟨releases_releaseWindow d, ?_, r.2⟩
  simp only [Device.onLtu_ltu, Device.onLtu_clock, r.1, c]

/-- The beginning of a pass with coach channels (R75, R76, R110). -/
theorem startPass_coach (pass : Pass) (h : hasCoach pass.channels = true) :
    (d.ltu.window = .held →
        (d.startPass pass).ltu = { d.ltu with
          pass := some pass, measuring := pass.remaining.head?, measureTimer := some (d.clock + 40000) }
        ∧ (d.startPass pass).hcu = d.hcu)
    ∧ (d.ltu.window = .waiting →
        (d.startPass pass).ltu = { d.ltu with pass := some pass } ∧ (d.startPass pass).hcu = d.hcu)
    ∧ (d.ltu.window = .none →
        Asks d (d.startPass pass)
        ∧ (((d.startPass pass).ltu = { d.ltu with
              pass := some pass, window := .held, measuring := pass.remaining.head?,
              measureTimer := some (d.clock + 40000) }
            ∧ (d.startPass pass).hcu.window = .effective)
          ∨ ((d.startPass pass).ltu = { d.ltu with pass := some pass, window := .waiting }
            ∧ (d.startPass pass).hcu.window = .settling
            ∧ (d.startPass pass).hcu.settling = some (d.clock + 100000)))) := by
  refine ⟨fun w => ?_, fun w => ?_, fun w => ?_⟩
  · have e : d.startPass pass = (d.onLtu fun ltu => { ltu with pass := some pass }).beginMeasurement := by
      unfold Device.startPass
      rw [if_pos h]
      simp [w]
    rw [e, beginMeasurement_eq (pass := pass) _ rfl]
    exact ⟨rfl, rfl⟩
  · have e : d.startPass pass = d.onLtu fun ltu => { ltu with pass := some pass } := by
      unfold Device.startPass
      rw [if_pos h]
      simp [w]
    rw [e]
    exact ⟨rfl, rfl⟩
  · have e : d.startPass pass = (d.onLtu fun ltu => { ltu with pass := some pass }).requestWindow := by
      unfold Device.startPass
      rw [if_pos h]
      simp [w]
    rw [e]
    unfold Device.requestWindow
    generalize g : ((d.onLtu fun ltu => { ltu with pass := some pass }).onLtu fun ltu => { ltu with window := .waiting }) = f
    have gl : f.ltu = { d.ltu with pass := some pass, window := .waiting } := by rw [← g]; rfl
    have gh : f.hcu = d.hcu := by rw [← g]; rfl
    have gc : f.clock = d.clock := by rw [← g]; rfl
    have q := hcuWindowRequest_eq f
    have l := hcuWindowRequest_ltu f
    have c := hcuWindowRequest_clock f
    have lo : Asks d f.hcuWindowRequest := (Releases.of_hcu gh).asks q.1
    dsimp only
    split
    · next eff =>
      have le : f.hcuWindowRequest.limitEffective = f.hcuWindowRequest.onLtu fun ltu =>
          { ltu with window := .held, measuring := pass.remaining.head?, measureTimer := some (d.clock + 40000) } := by
        unfold Device.limitEffective
        rw [if_pos (by rw [l, gl])]
        rw [beginMeasurement_eq (pass := pass) _ (by simp [l, gl])]
        simp only [Device.onLtu_clock, c, gc]
        rfl
      rw [le]
      refine ⟨lo, .inl ⟨?_, eff⟩⟩
      simp [l, gl]
    · next eff =>
      refine ⟨lo, .inr ⟨by rw [l, gl], ?_⟩⟩
      rcases q.2 with q | q
      · exact absurd q eff
      · rw [gc] at q; exact q

/-! ### Serving the pending kinds (R70) -/

/-- A change of LAMP content writes the LAMP section alone. -/
theorem markLamp_eq (before : Device) :
    before.markLamp d = d.onSc fun sc => { sc with lamp := (before.markLamp d).sc.lamp } := by
  unfold Device.markLamp
  split <;> rfl

/-- The beginning of a pass: what of the unit it writes (R70 to R72), the LAMP section apart. -/
theorem beginPass_eq (kind : PassKind) (set : List Nat) :
    d.beginPass kind set = (d.onLtu fun ltu =>
      match kind with
      | .retest => { ltu with pendingRetest := false, requests := [] }
      | .signal => { ltu with pendingSignal := false }
      | .full => { ltu with
          pendingFull := false, channels := ltu.channels.map (Channel.beginFull set),
          fullTimer := some (d.clock + 600000000) }).onSc
      fun sc => { sc with lamp := (d.beginPass kind set).sc.lamp } := by
  rw [Device.beginPass, markLamp_eq]
  cases kind <;> rfl

/-- The channel set of a pass looks at the phase, the channels and, for a retest, the requests. -/
theorem passSet_congr {d e : Device} (p : e.cu.phase = d.cu.phase) (c : e.ltu.channels = d.ltu.channels)
    (kind : PassKind) (r : kind ≠ .retest ∨ e.ltu.requests = d.ltu.requests) : e.passSet kind = d.passSet kind := by
  unfold Device.passSet
  rw [c]
  congr 1
  refine List.filter_congr fun x _ => ?_
  cases kind
  · rcases r with r | r
    · exact absurd rfl r
    · simp [Device.inPass, Device.inRetest, p, r]
  · rfl
  · simp [Device.inPass, p]

theorem firstPending_none {ltu : Ltu} (h : ltu.firstPending = none) :
    ltu.pendingRetest = false ∧ ltu.pendingSignal = false ∧ ltu.pendingFull = false := by
  unfold Ltu.firstPending at h
  repeat' split at h
  all_goals simp_all

/-- With no kind pending nothing is served, and the unit lets its window go (R70, R76). -/
theorem served_none (p : d.ltu.pass = none) (h : d.ltu.firstPending = none) : PassesServed d d.releaseWindow := by
  obtain ⟨h1, h2, h3⟩ := firstPending_none h
  obtain ⟨r1, r2⟩ := releaseWindow_eq d
  have k : d.kindServed = none := by simp [Device.kindServed, h1, h2, h3]
  constructor
  · rw [r1, k]; exact p
  · rw [r1]; simp [h1, h2, h3]
  · rw [r1]; simp [h1]
  · rw [r1, k]; simp [h3]
  · rw [r1]; exact ⟨rfl, rfl, rfl, rfl⟩
  · rw [r1, k, h]; rfl
  · rw [r1, k]
  · intro _
    rw [r1, r2]
    exact ⟨rfl, fun w => if_neg w, fun w => if_pos w, fun pass e => by simp [p] at e, fun _ => ⟨rfl, rfl⟩⟩
  · intro pass e
    rw [r1] at e
    simp [p] at e

/-- The beginning of a pass writes nothing of the unit but the pass, its window and its measurement. -/
theorem startPass_ltu (pass : Pass) : (d.startPass pass).ltu = { d.ltu with
    pass := some pass, window := (d.startPass pass).ltu.window, measuring := (d.startPass pass).ltu.measuring,
    measureTimer := (d.startPass pass).ltu.measureTimer } := by
  by_cases h : hasCoach pass.channels = true
  · obtain ⟨h1, h2, h3⟩ := startPass_coach d pass h
    cases w : d.ltu.window with
    | none => rcases (h3 w).2 with ⟨e, _⟩ | ⟨e, _⟩ <;> rw [e]
    | waiting => rw [(h2 w).1]
    | held => rw [(h1 w).1]
  · rw [(startPass_noCoach d pass (by simpa using h)).2.1]

/-- What of the unit a kind that is first pending leaves behind it (R70 to R72). -/
theorem beginPass_fields (kind : PassKind) (set : List Nat) (h : d.ltu.firstPending = some kind) :
    (d.beginPass kind set).ltu =
      { d.ltu with
        pendingRetest := false, pendingSignal := d.ltu.pendingSignal && decide (kind = .retest),
        pendingFull := d.ltu.pendingFull && decide (kind ≠ .full),
        requests := if d.ltu.pendingRetest = true then [] else d.ltu.requests,
        fullTimer := if kind = .full then some (d.clock + 600000000) else d.ltu.fullTimer,
        channels := if kind = .full then d.ltu.channels.map (Channel.beginFull set) else d.ltu.channels }
    ∧ (kind = .retest ↔ d.ltu.pendingRetest = true)
    ∧ (kind = .signal ↔ d.ltu.pendingRetest = false ∧ d.ltu.pendingSignal = true)
    ∧ (kind = .full ↔ d.ltu.pendingRetest = false ∧ d.ltu.pendingSignal = false ∧ d.ltu.pendingFull = true)
    ∧ (kind = .full → d.ltu.pendingFull = true) := by
  rw [beginPass_eq]
  rcases d with ⟨clock, pins, sc, identity, clc, ftu, ⟨channels, r, s, f, q, pass, m, mt, stop, window, t1, t2, t3, t4⟩, hp, hcu, cu, lu⟩
  unfold Ltu.firstPending at h
  dsimp only at h
  cases r <;> cases s <;> cases f <;> simp at h <;> subst h <;> simp [Device.onLtu, Device.onSc]

/-- The kind served is the first pending where it finds a channel set. -/
theorem kindServed_first {kind : PassKind} (h : d.ltu.firstPending = some kind) (n : d.passSet kind ≠ []) :
    d.kindServed = some kind := by
  obtain ⟨_, h1, h2, h3, _⟩ := beginPass_fields d kind [] h
  unfold Device.kindServed
  cases kind
  · rw [if_pos ⟨h1.1 rfl, n⟩]
  · rw [if_neg (by simp [(h2.1 rfl).1]), if_pos ⟨(h2.1 rfl).2, n⟩]
  · rw [if_neg (by simp [(h3.1 rfl).1]), if_neg (by simp [(h3.1 rfl).2.1]), if_pos ⟨(h3.1 rfl).2.2, n⟩]

/-- The first pending kind with a channel set is served (R70 to R76). -/
theorem served_first {kind : PassKind} (h : d.ltu.firstPending = some kind) (n : d.passSet kind ≠ []) :
    PassesServed d (d.servePass kind) ∧ Lowers d.asksWindow d (d.servePass kind) := by
  unfold Device.servePass
  generalize gm : (d.onLtu fun ltu => { ltu with met := ⟨ltu.requests, ltu.channels, ltu.fullTimer⟩ }) = m
  have mh : m.hcu = d.hcu := by rw [← gm]; rfl
  have mc : m.clock = d.clock := by rw [← gm]; rfl
  have ml : m.ltu = { d.ltu with met := ⟨d.ltu.requests, d.ltu.channels, d.ltu.fullTimer⟩ } := by rw [← gm]; rfl
  have mf : m.ltu.firstPending = some kind := by rw [ml]; exact h
  obtain ⟨b, h1, h2, h3, h4⟩ := beginPass_fields m kind (d.passSet kind) mf
  have k := kindServed_first d h n
  have bh : (m.beginPass kind (d.passSet kind)).hcu = d.hcu := by rw [beginPass_eq]; exact mh
  have bc : (m.beginPass kind (d.passSet kind)).clock = d.clock := by rw [beginPass_eq]; exact mc
  rw [ml] at b h1 h2 h3 h4
  rw [mc] at b
  generalize (m.beginPass kind (d.passSet kind)) = f at b bh bc
  have l := startPass_ltu f ⟨kind, d.passSet kind, d.passSet kind⟩
  have no := startPass_noCoach f ⟨kind, d.passSet kind, d.passSet kind⟩
  have co := startPass_coach f ⟨kind, d.passSet kind, d.passSet kind⟩
  have fd : Releases d f := Releases.of_hcu bh
  generalize f.startPass ⟨kind, d.passSet kind, d.passSet kind⟩ = e at l no co
  have ep : e.ltu.pass = some ⟨kind, d.passSet kind, d.passSet kind⟩ := by rw [l]
  have fw : f.ltu.window = d.ltu.window := by rw [b]
  have aw : d.asksWindow = (hasCoach (d.passSet kind) && decide (d.ltu.window = .none)) := by
    unfold Device.asksWindow
    rw [k, h]
    cases d.ltu.window <;> simp
  refine ⟨⟨?_, ?_, ?_, ?_, ?_, ?_, ?_, ?_, ?_⟩, ?_⟩
  · rw [ep, k]; rfl
  · rw [l, b, k]; cases kind <;> simp
  · rw [l, b]
  · rw [l, b, k]
    refine ⟨?_, ?_⟩
    · cases kind
      · simp
      · simp
      · have := h4 rfl
        dsimp only at this
        simp [this]
    · cases kind <;> simp
  · rw [l, b]; exact ⟨rfl, rfl, rfl, rfl⟩
  · rw [l, b, k, h]; simp
  · rw [l, b, k]
    dsimp only
    congr 1
    cases kind
    · simp
    · have := (h2.1 rfl).1; dsimp only at this; simp [this]
    · have := (h3.1 rfl).1; dsimp only at this; simp [this]
  · intro z
    obtain ⟨_, m1, m2⟩ := no (z _ ep)
    rw [m1, m2, fw, bh, bc]
    refine ⟨rfl, fun w => if_neg w, fun w => if_pos w, ?_, fun v => by cases v⟩
    intro pass v
    cases v
    exact ⟨rfl, rfl⟩
  · intro pass v c
    rw [ep] at v
    cases v
    obtain ⟨m1, m2, m3⟩ := co c
    rw [fw, bh, bc] at m1
    rw [fw, bh] at m2
    rw [fw, bc] at m3
    rw [aw, show hasCoach (d.passSet kind) = true from c]
    cases w : d.ltu.window with
    | none =>
      rw [if_pos (by simp)]
      rcases (m3 w).2 with ⟨e1, e2⟩ | ⟨e1, e2, e3⟩
      · exact .inl (by rw [e1]; exact ⟨rfl, e2, rfl, rfl⟩)
      · exact .inr (by rw [e1]; exact ⟨rfl, e2, e3, by rw [b], by rw [b]⟩)
    | waiting =>
      rw [if_neg (by simp)]
      obtain ⟨e1, e2⟩ := m2 w
      rw [e1, e2]
      exact ⟨by rw [b]; exact w, rfl, fun q => absurd q (by decide), fun _ => ⟨rfl, by rw [b], by rw [b]⟩⟩
    | held =>
      rw [if_neg (by simp)]
      obtain ⟨e1, e2⟩ := m1 w
      rw [e1, e2]
      exact ⟨by rw [b]; exact w, rfl, fun _ => ⟨rfl, rfl⟩, fun q => absurd q (by decide)⟩
  · rw [aw]
    by_cases c : hasCoach (d.passSet kind) = true
    · obtain ⟨m1, m2, m3⟩ := co c
      rw [fw] at m1 m2 m3
      rw [c]
      cases w : d.ltu.window with
      | none => exact fd.asks (m3 w).1
      | waiting => exact Releases.of_hcu ((m2 w).2.trans bh)
      | held => exact Releases.of_hcu ((m1 w).2.trans bh)
    · rw [show hasCoach (d.passSet kind) = false by simpa using c]
      exact fd.trans (no (by simpa using c)).1

/-- A full pass over no channel resets none. -/
theorem beginFull_nil : Channel.beginFull [] = id := by funext c; simp [Channel.beginFull]

/-- A first pending kind without channels is over at once, and the window goes; what is served then is what would have
been served without it (R70, R76; log entry 14). -/
theorem served_skip {kind : PassKind} {e : Device} (h : d.ltu.firstPending = some kind)
    (n : d.passSet kind = []) (s : PassesServed (d.beginPass kind []).releaseWindow.noteEnd e) :
    PassesServed d e ∧ (d.beginPass kind []).releaseWindow.noteEnd.asksWindow = d.asksWindow := by
  obtain ⟨b, h1, h2, h3, h4⟩ := beginPass_fields d kind [] h
  have bh : (d.beginPass kind []).hcu = d.hcu := by rw [beginPass_eq]; rfl
  have bc : (d.beginPass kind []).clock = d.clock := by rw [beginPass_eq]; rfl
  have bu : (d.beginPass kind []).cu = d.cu := by rw [beginPass_eq]; rfl
  generalize (d.beginPass kind []) = f at b bh bc bu s
  have rc : f.releaseWindow.clock = f.clock := by rw [LampSide.releaseWindow f]
  have ru : f.releaseWindow.cu = f.cu := by rw [LampSide.releaseWindow f]
  obtain ⟨r1, r2⟩ := releaseWindow_eq f
  have gc : f.releaseWindow.noteEnd.clock = d.clock := rc.trans bc
  have gu : f.releaseWindow.noteEnd.cu = d.cu := ru.trans bu
  have gl : f.releaseWindow.noteEnd.ltu = { d.ltu with
      pendingRetest := false, pendingSignal := d.ltu.pendingSignal && decide (kind = .retest),
      pendingFull := d.ltu.pendingFull && decide (kind ≠ .full),
      requests := if d.ltu.pendingRetest = true then [] else d.ltu.requests,
      fullTimer := if kind = .full then some (d.clock + 600000000) else d.ltu.fullTimer, window := .none,
      endedAt := some d.clock } := by
    unfold Device.noteEnd
    rw [Device.onLtu_ltu, r1, b, rc.trans bc]
    simp [beginFull_nil]
  have gw : f.releaseWindow.noteEnd.hcu.window = if d.ltu.window = .none then d.hcu.window else .none := by
    show f.releaseWindow.hcu.window = _
    rw [r2, b, bh]
  generalize f.releaseWindow.noteEnd = g at s gc gu gl gw
  have s1 : g.passSet .signal = d.passSet .signal := passSet_congr (by rw [gu]) (by rw [gl]) _ (.inl (by decide))
  have s2 : g.passSet .full = d.passSet .full := passSet_congr (by rw [gu]) (by rw [gl]) _ (.inl (by decide))
  have k : g.kindServed = d.kindServed := by
    unfold Device.kindServed
    rw [s1, s2, gl]
    cases kind
    · rw [if_neg (by simp), if_neg (c := d.ltu.pendingRetest = true ∧ _) (by simp [n])]; simp
    · have := h2.1 rfl; simp [this, n]
    · have := h3.1 rfl; simp [this, n]
  have kn : d.kindServed ≠ some kind := by
    unfold Device.kindServed
    cases kind
    · simp [n]; split <;> [simp; (split <;> simp)]
    · have := h2.1 rfl; simp [this, n]
    · have := h3.1 rfl; simp [this, n]
  have kr : d.kindServed ≠ some .retest := by
    intro v
    rw [← k] at v
    unfold Device.kindServed at v
    rw [gl] at v
    simp at v
    split at v <;> [cases v; (split at v <;> cases v)]
  have sk : ∀ j, d.kindServed = some j → g.passSet j = d.passSet j := by
    intro j v
    cases j
    · exact absurd v kr
    · exact s1
    · exact s2
  have ga : g.asksWindow = d.asksWindow := by
    unfold Device.asksWindow
    rw [k, gl, h]
    cases v : d.kindServed with
    | none => rfl
    | some j =>
      have : kind ≠ j := by
        rintro rfl
        exact kn v
      simp [sk j v, this]
  refine ⟨?_, ga⟩
  constructor
  · rw [s.pass, k]
    cases v : d.kindServed with
    | none => rfl
    | some j => simp [sk j v]
  · obtain ⟨p1, p2, p3⟩ := s.pending
    refine ⟨p1, ?_, ?_⟩
    · rw [p2, k, gl]; simp [kr]
    · rw [p3, k, gl]
      cases kind
      · simp
      · simp [kr, kn]
      · simp only [kr]
        have := h3.1 rfl
        have v : d.kindServed ≠ some .signal := by
          unfold Device.kindServed; simp [this, n]
        simp [v]
  · rw [s.requests, gl]; simp
  · obtain ⟨f1, f2⟩ := s.full
    rw [f1, f2, k, s2, gl, gc]
    refine ⟨?_, rfl⟩
    cases kind
    · simp
    · simp
    · have := h3.1 rfl
      have v : e.ltu.pendingFull = false := by rw [s.pending.2.2, gl]; simp
      simp [this, v]
  · rw [s.rest.1, s.rest.2.1, s.rest.2.2.1, s.rest.2.2.2, gl]
    exact ⟨rfl, rfl, rfl, rfl⟩
  · rw [h, if_neg kn, s.ended, gc, gl]
    exact ite_self _
  · rw [s.met, k, gl]
    cases v : d.kindServed with
    | none => rfl
    | some j =>
      have : j ≠ .retest := by
        rintro rfl
        exact kr v
      have z : kind ≠ .full := by
        rintro rfl
        have := h3.1 rfl
        unfold Device.kindServed at v
        simp [this, n] at v
      simp [this, z]
  · intro z
    obtain ⟨z1, _, z3, z4, z5⟩ := s.released z
    refine ⟨z1, ?_, ?_, ?_, ?_⟩
    · intro w; rw [z3 (by rw [gl]), gw, if_neg w]
    · intro w; rw [z3 (by rw [gl]), gw, if_pos w]
    · intro pass v; rw [gc] at z4; exact z4 pass v
    · intro v; rw [(z5 v).1, (z5 v).2, gl]; exact ⟨rfl, rfl⟩
  · intro pass v c
    have w := s.windowed pass v c
    have a : d.asksWindow = true := by
      rw [s.pass, k] at v
      cases q : d.kindServed with
      | none => rw [q] at v; cases v
      | some j =>
        rw [q] at v
        simp only [Option.map_some, Option.some.injEq] at v
        rw [← v, sk j q] at c
        have : ¬ kind = j := by
          rintro rfl
          exact kn q
        unfold Device.asksWindow
        rw [q, h]
        simp only [Option.some.injEq, this]
        simpa using c
    rw [if_pos (ga.trans a)] at w
    rw [if_pos a]
    rw [gc] at w
    rcases w with w | ⟨w1, w2, w3, w4, w5⟩
    · exact .inl w
    · exact .inr ⟨w1, w2, w3, by rw [w4, gl], by rw [w5, gl]⟩

/-- How many kinds are pending. -/
def Ltu.pendingCount (ltu : Ltu) : Nat :=
  (if ltu.pendingRetest then 1 else 0) + (if ltu.pendingSignal then 1 else 0) + (if ltu.pendingFull then 1 else 0)

/-- The serving of the pending kinds in a free unit, said once (R70 to R76). -/
theorem servePasses_served (n : Nat) (p : d.ltu.pass = none) (c : d.ltu.pendingCount < n) :
    PassesServed d (d.servePasses n) ∧ Lowers d.asksWindow d (d.servePasses n) := by
  induction n generalizing d with
  | zero => omega
  | succ n ih =>
    cases h : d.ltu.firstPending with
    | none =>
      have e : d.servePasses (n + 1) = d.releaseWindow := by rw [Device.servePasses, p, h]
      have k : d.asksWindow = false := by
        obtain ⟨h1, h2, h3⟩ := firstPending_none h
        simp [Device.asksWindow, Device.kindServed, h1, h2, h3]
      rw [e, k]
      exact ⟨served_none d p h, releases_releaseWindow d⟩
    | some kind =>
      by_cases z : d.passSet kind = []
      · have e : d.servePasses (n + 1) = (d.beginPass kind []).releaseWindow.noteEnd.servePasses n := by
          rw [Device.servePasses, p, h]
          simp [z]
        obtain ⟨b, h1, h2, h3, h4⟩ := beginPass_fields d kind [] h
        have fd : Releases d (d.beginPass kind []) := Releases.of_hcu (by rw [beginPass_eq]; rfl)
        have r1 : (d.beginPass kind []).releaseWindow.noteEnd.ltu = { (d.beginPass kind []).ltu with
            window := .none, endedAt := some (d.beginPass kind []).releaseWindow.clock } := by
          unfold Device.noteEnd
          rw [Device.onLtu_ltu, (releaseWindow_eq (d.beginPass kind [])).1]
        have i := ih (d.beginPass kind []).releaseWindow.noteEnd (by rw [r1, b]; exact p) (by
          rw [r1, b]
          unfold Ltu.pendingCount at c ⊢
          cases kind
          · have := h1.1 rfl; simp_all; omega
          · have := h2.1 rfl; simp_all; omega
          · have := h3.1 rfl; simp_all)
        obtain ⟨s, a⟩ := served_skip d h z i.1
        rw [e]
        rw [a] at i
        exact ⟨s, (fd.trans (releases_releaseWindow _)).lowers i.2⟩
      · have e : d.servePasses (n + 1) = d.servePass kind := by
          rw [Device.servePasses, p, h]
          simp [z]
        rw [e]
        exact served_first d h z

/-! ### A pass that gives way (R70, R83) -/

/-- What of a unit is written where its pass in flight is taken back. -/
theorem unbegin_fields (ltu : Ltu) (prepared : Bool) (pass : Pass) :
    (ltu.unbegin prepared pass).pendingRetest = (decide (pass.kind = .retest) || ltu.pendingRetest)
    ∧ (ltu.unbegin prepared pass).pendingSignal = (decide (pass.kind = .signal) || ltu.pendingSignal)
    ∧ (pass.kind ≠ .retest → (ltu.unbegin prepared pass).requests = ltu.requests) := by
  unfold Ltu.unbegin
  cases pass.kind <;> simp

/-- A signal pass holds no coach channel (R73). -/
theorem hasCoach_signal : hasCoach (d.passSet .signal) = false := by
  unfold hasCoach Device.passSet
  rw [List.any_eq_false]
  intro x m
  obtain ⟨c, mc, rfl⟩ := List.mem_map.1 m
  have := (List.mem_filter.1 mc).2
  simp only [Device.inPass, Bool.and_eq_true, Channel.ofCoach] at this
  simpa using this.2

/-- A retest that finds no channel leaves what a pass in flight of another kind gives way to, and with what result. -/
theorem served_beside {pass : Pass} {e : Device} (en : d.ltu.endedAt = some d.clock) (k : pass.kind ≠ .retest) (r : d.ltu.pendingRetest = true)
    (z : (d.unbegin pass).passSet .retest = [])
    (q : ((d.beginPass .retest []).unbegin pass).kindServed = some .signal)
    (s : PassesServed ((d.beginPass .retest []).unbegin pass) e) :
    PassesServed (d.unbegin pass) e ∧ (d.unbegin pass).asksWindow = false := by
  have bl : (d.beginPass .retest []).ltu = { d.ltu with pendingRetest := false, requests := [] } := by
    rw [beginPass_eq]; rfl
  have gl : ((d.beginPass .retest []).unbegin pass).ltu =
      { (d.unbegin pass).ltu with pendingRetest := false, requests := [] } := by
    show (d.beginPass .retest []).ltu.unbegin (d.beginPass .retest []).cu.phase.prepared pass =
      { d.ltu.unbegin d.cu.phase.prepared pass with pendingRetest := false, requests := [] }
    rw [bl, show (d.beginPass .retest []).cu = d.cu by rw [beginPass_eq]; rfl]
    unfold Ltu.unbegin
    cases h : pass.kind
    · exact absurd h k
    · rfl
    · rfl
  have gh : ((d.beginPass .retest []).unbegin pass).hcu = (d.unbegin pass).hcu := by
    show (d.beginPass .retest []).hcu = d.hcu
    rw [beginPass_eq]; rfl
  have gc : ((d.beginPass .retest []).unbegin pass).clock = (d.unbegin pass).clock := by
    show (d.beginPass .retest []).clock = d.clock
    rw [beginPass_eq]; rfl
  have gu : ((d.beginPass .retest []).unbegin pass).cu = (d.unbegin pass).cu := by
    show (d.beginPass .retest []).cu = d.cu
    rw [beginPass_eq]; rfl
  have ur : (d.unbegin pass).ltu.pendingRetest = true := by
    show (d.ltu.unbegin d.cu.phase.prepared pass).pendingRetest = true
    rw [(unbegin_fields d.ltu d.cu.phase.prepared pass).1, r, Bool.or_true]
  have ue : (d.unbegin pass).ltu.endedAt = some (d.unbegin pass).clock := by
    refine Eq.trans ?_ en
    show (d.ltu.unbegin d.cu.phase.prepared pass).endedAt = d.ltu.endedAt
    unfold Ltu.unbegin
    cases pass.kind <;> rfl
  generalize (d.beginPass .retest []).unbegin pass = g at gl gh gc gu s q
  generalize d.unbegin pass = u at gl gh gc gu z ur ue
  have s1 : g.passSet .signal = u.passSet .signal := passSet_congr (by rw [gu]) (by rw [gl]) _ (.inl (by decide))
  have ku : u.kindServed = some .signal := by
    unfold Device.kindServed at q ⊢
    rw [s1, gl] at q
    rw [if_neg (by simp [z])]
    simp only [Bool.false_eq_true, false_and, if_false] at q
    split at q
    · next h => rw [if_pos h]
    · split at q <;> cases q
  have no := hasCoach_signal u
  have a : u.asksWindow = false := by simp [Device.asksWindow, ku, no]
  refine ⟨?_, a⟩
  have sp := s.pass
  rw [q, Option.map_some, s1] at sp
  constructor
  · rw [sp, ku]; rfl
  · have := s.pending
    rw [q, gl] at this
    rw [ku]
    exact this
  · rw [s.requests, gl, if_pos ur]; rfl
  · have := s.full
    rw [q, gl, gc] at this
    rw [ku]
    exact this
  · have := s.rest
    rw [gl] at this
    exact this
  · have f : u.ltu.firstPending = some .retest := by simp [Ltu.firstPending, ur]
    have f' : g.kindServed = g.ltu.firstPending := by
      rw [q, gl]
      unfold Device.kindServed at q
      rw [gl] at q
      simp only [Bool.false_eq_true, false_and, if_false] at q
      split at q
      · next h => simp [Ltu.firstPending, h.1]
      · split at q <;> cases q
    rw [s.ended, if_pos f', ku, f, if_neg (by decide), gl]
    exact ue
  · rw [s.met, q, ku, gl]
    simp [ur]
  · intro w
    obtain ⟨z1, z2, z3, z4, z5⟩ := s.released w
    rw [gl] at z2 z3 z5
    rw [gh] at z3
    rw [gc] at z4
    exact ⟨z1, z2, z3, z4, z5⟩
  · intro x v c
    rw [sp] at v
    cases v
    rw [no] at c
    cases c

/-- The serving of the pending kinds beside a pass in flight, said once: it goes on, or gives way (R70, R83). -/
theorem servePasses_beside (n : Nat) {pass : Pass} (p : d.ltu.pass = some pass) (c : d.ltu.pendingCount < n) :
    (d.kindBefore pass = none →
      (d.servePasses n).hcu = d.hcu
      ∧ (d.servePasses n).ltu =
          if d.ltu.endedAt = some d.clock then
            { d.ltu with
              requests := if d.ltu.pendingRetest = true then [] else d.ltu.requests,
              pendingRetest := false,
              pendingSignal := d.ltu.pendingSignal && decide (pass.kind = .retest),
              pendingFull := d.ltu.pendingFull && decide (pass.kind ≠ .full),
              fullTimer :=
                if d.ltu.pendingFull = true ∧ pass.kind = .full then some (d.clock + 600000000)
                else d.ltu.fullTimer }
          else d.ltu)
    ∧ ((d.kindBefore pass).isSome = true →
      PassesServed (d.unbegin pass) (d.servePasses n)
        ∧ Lowers (d.unbegin pass).asksWindow d (d.servePasses n)) := by
  by_cases en : d.ltu.endedAt = some d.clock
  swap
  · have kb : d.kindBefore pass = none := by unfold Device.kindBefore; rw [if_pos en]
    have e : d.servePasses n = d := by
      cases n with
      | zero => omega
      | succ n =>
        rw [Device.servePasses, p]
        cases d.ltu.firstPending with
        | none => rfl
        | some kind => simp [Device.givesWay, en]
    rw [kb, e, if_neg en]
    exact ⟨fun _ => ⟨rfl, rfl⟩, fun x => by cases x⟩
  induction n generalizing d with
  | zero => omega
  | succ n ih =>
    cases h : d.ltu.firstPending with
    | none =>
      obtain ⟨h1, h2, h3⟩ := firstPending_none h
      have kb : d.kindBefore pass = none := by
        unfold Device.kindBefore
        rw [if_neg (by simp [en]), if_neg (by simp [h1]), if_neg (by simp [h2])]
      have e : d.servePasses (n + 1) = d := by rw [Device.servePasses, p, h]
      rw [kb, e, if_pos en]
      refine ⟨fun _ => ⟨rfl, ?_⟩, fun x => by cases x⟩
      rcases d with ⟨_, _, _, _, _, _, ⟨_, _, _, _, _, _, _, _, _, _, _, _, _, _, _, _⟩, _, _, _, _⟩
      dsimp only at h1 h2 h3 ⊢
      subst h1 h2 h3
      rfl
    | some kind =>
      obtain ⟨b, h1, h2, h3, h4⟩ := beginPass_fields d kind [] h
      obtain ⟨u1, u2, u3⟩ := unbegin_fields d.ltu d.cu.phase.prepared pass
      by_cases g : kind.rank ≤ pass.kind.rank
      · have gw : d.givesWay pass kind = true := by simp [Device.givesWay, en, g]
        by_cases f : kind = .full
        · -- a full pass merges
          subst f
          have pk : pass.kind = .full := by
            revert g; cases pass.kind <;> simp [PassKind.rank]
          obtain ⟨f1, f2, f3⟩ := h3.1 rfl
          have e : d.servePasses (n + 1) = d.beginPass .full [] := by
            have e1 : d.servePasses (n + 1) = (d.beginPass .full []).servePasses n := by
              rw [Device.servePasses, p, h]
              simp [gw]
            rw [e1]
            cases n with
            | zero =>
              unfold Ltu.pendingCount at c
              simp [f3] at c
            | succ n =>
              rw [Device.servePasses, b]
              simp [p, Ltu.firstPending, f2]
          have kb : d.kindBefore pass = none := by
            unfold Device.kindBefore
            rw [if_neg (by simp [en]), if_neg (by simp [f1]), if_neg (by simp [f2])]
          rw [kb, e, if_pos en]
          refine ⟨fun _ => ⟨by rw [beginPass_eq]; rfl, ?_⟩, fun x => by cases x⟩
          rw [b]
          simp [f1, f2, f3, pk, beginFull_nil]
        · by_cases z : (d.unbegin pass).passSet kind = []
          · -- a kind without channels is over at once
            have e : d.servePasses (n + 1) = (d.beginPass kind []).servePasses n := by
              have z' : (d.unbegin pass).passSet kind = [] := z
              rw [Device.servePasses, p, h]
              simp [gw, f, z']
            have bc : (d.beginPass kind []).clock = d.clock := by rw [beginPass_eq]; rfl
            have bh : (d.beginPass kind []).hcu = d.hcu := by rw [beginPass_eq]; rfl
            have bu : (d.beginPass kind []).cu = d.cu := by rw [beginPass_eq]; rfl
            have en' : (d.beginPass kind []).ltu.endedAt = some (d.beginPass kind []).clock := by
              rw [b, bc]; exact en
            obtain ⟨i1, i2⟩ := ih (d := d.beginPass kind []) (by rw [b]; exact p) (by
              rw [b]
              unfold Ltu.pendingCount at c ⊢
              cases kind
              · have := h1.1 rfl; simp_all; omega
              · have := h2.1 rfl; simp_all; omega
              · exact absurd rfl f) en'
            rw [if_pos en', bh, bc] at i1
            -- the signal channels are the same
            have ss : ((d.beginPass kind []).unbegin pass).passSet .signal = (d.unbegin pass).passSet .signal := by
              refine passSet_congr (by show (d.beginPass kind []).cu.phase = _; rw [bu]; rfl) ?_ _ (.inl (by decide))
              show ((d.beginPass kind []).ltu.unbegin (d.beginPass kind []).cu.phase.prepared pass).channels =
                (d.ltu.unbegin d.cu.phase.prepared pass).channels
              rw [b]
              unfold Ltu.unbegin
              cases pass.kind <;> simp [f]
            rw [e]
            cases kind with
            | full => exact absurd rfl f
            | retest =>
              have r := h1.1 rfl
              have kb : (d.beginPass .retest []).kindBefore pass = d.kindBefore pass := by
                unfold Device.kindBefore
                rw [if_neg (by simp [en']), if_neg (c := d.ltu.endedAt ≠ _) (by simp [en]), ss,
                  if_neg (c := d.ltu.pendingRetest = true ∧ _) (by simp [z]), b]
                simp
              rw [kb] at i1 i2
              refine ⟨fun k => ?_, fun k => ?_⟩
              · obtain ⟨j1, j2⟩ := i1 k
                refine ⟨j1, ?_⟩
                rw [j2, if_pos en, b]
                simp [r]
              · obtain ⟨j1, j2⟩ := i2 k
                have q : d.ltu.pendingSignal = true ∧ pass.kind ≠ .retest
                    ∧ (d.unbegin pass).passSet .signal ≠ [] := by
                  unfold Device.kindBefore at k
                  rw [if_neg (by simp [en]), if_neg (by simp [z])] at k
                  split at k
                  · next x => exact x
                  · cases k
                have ks : ((d.beginPass .retest []).unbegin pass).kindServed = some .signal := by
                  obtain ⟨v1, v2, v3⟩ := unbegin_fields (d.beginPass .retest []).ltu (d.beginPass .retest []).cu.phase.prepared pass
                  have w1 : ((d.beginPass .retest []).unbegin pass).ltu.pendingRetest = false := by
                    refine v1.trans ?_
                    rw [b]; simp [q.2.1]
                  have w2 : ((d.beginPass .retest []).unbegin pass).ltu.pendingSignal = true := by
                    refine v2.trans ?_
                    rw [b]; simp [q.1]
                  unfold Device.kindServed
                  rw [if_neg (by simp [w1]), if_pos ⟨w2, by rw [ss]; exact q.2.2⟩]
                obtain ⟨y1, y2⟩ := served_beside d en q.2.1 r z ks j1
                refine ⟨y1, ?_⟩
                have a' : ((d.beginPass .retest []).unbegin pass).asksWindow = false := by
                  simp [Device.asksWindow, ks, hasCoach_signal]
                rw [y2]
                rw [a'] at j2
                exact (Releases.of_hcu bh).lowers j2
            | signal =>
              obtain ⟨r1, r2⟩ := h2.1 rfl
              have kb : (d.beginPass .signal []).kindBefore pass = none := by
                unfold Device.kindBefore
                rw [if_neg (by simp [en']), if_neg (by simp [b]), if_neg (by simp [b])]
              have kb' : d.kindBefore pass = none := by
                unfold Device.kindBefore
                rw [if_neg (by simp [en]), if_neg (by simp [r1]), if_neg (by simp [z])]
              obtain ⟨j1, j2⟩ := i1 kb
              rw [kb']
              refine ⟨fun _ => ⟨j1, ?_⟩, fun x => by cases x⟩
              have pk : pass.kind ≠ .retest := by
                intro x; rw [x] at g; simp [PassKind.rank] at g
              rw [j2, if_pos en, b]
              simp [r1, pk]
          · -- it is served
            have e : d.servePasses (n + 1) = (d.unbegin pass).servePass kind := by
              have z' : (d.unbegin pass).passSet kind ≠ [] := z
              rw [Device.servePasses, p, h]
              simp only [gw, if_true]
              rw [if_neg (by simpa [f] using z')]
            have fp : (d.unbegin pass).ltu.firstPending = some kind := by
              show (d.ltu.unbegin d.cu.phase.prepared pass).firstPending = some kind
              unfold Ltu.firstPending
              cases kind with
              | full => exact absurd rfl f
              | retest => rw [u1, h1.1 rfl, Bool.or_true, if_pos rfl]
              | signal =>
                have pk : pass.kind ≠ .retest := by
                  intro x; rw [x] at g; simp [PassKind.rank] at g
                rw [u1, u2, (h2.1 rfl).1, (h2.1 rfl).2, Bool.or_true]
                simp [pk]
            have kb : d.kindBefore pass = some kind := by
              unfold Device.kindBefore
              rw [if_neg (by simp [en])]
              cases kind with
              | full => exact absurd rfl f
              | retest => rw [if_pos ⟨h1.1 rfl, z⟩]
              | signal =>
                have pk : pass.kind ≠ .retest := by
                  intro x; rw [x] at g; simp [PassKind.rank] at g
                rw [if_neg (by simp [(h2.1 rfl).1]), if_pos ⟨(h2.1 rfl).2, pk, z⟩]
            have s := served_first (d.unbegin pass) fp z
            rw [kb, e]
            exact ⟨fun x => (by cases x), fun _ => ⟨s.1, (Releases.of_hcu rfl).lowers s.2⟩⟩
      · have gw : d.givesWay pass kind = false := by simp [Device.givesWay, g]
        have e : d.servePasses (n + 1) = d := by
          rw [Device.servePasses, p, h]
          simp [gw]
        have kb : d.kindBefore pass = none := by
          unfold Device.kindBefore
          rw [if_neg (by simp [en])]
          cases kind with
          | retest => exact absurd (Nat.zero_le _) g
          | signal =>
            have pk : pass.kind = .retest := by
              revert g; cases pass.kind <;> simp [PassKind.rank]
            rw [if_neg (by simp [(h2.1 rfl).1]), if_neg (by simp [pk])]
          | full => rw [if_neg (by simp [(h3.1 rfl).1]), if_neg (by simp [(h3.1 rfl).2.1])]
        rw [kb, e, if_pos en]
        refine ⟨fun _ => ⟨rfl, ?_⟩, fun x => by cases x⟩
        have r : d.ltu.pendingRetest = false := by
          cases kind with
          | retest => exact absurd (Nat.zero_le _) g
          | signal => exact (h2.1 rfl).1
          | full => exact (h3.1 rfl).1
        have s : (d.ltu.pendingSignal && decide (pass.kind = .retest)) = d.ltu.pendingSignal := by
          cases kind with
          | retest => exact absurd (Nat.zero_le _) g
          | signal =>
            have pk : pass.kind = .retest := by
              revert g; cases pass.kind <;> simp [PassKind.rank]
            simp [pk]
          | full => simp [(h3.1 rfl).2.1]
        have t : (d.ltu.pendingFull && decide (pass.kind ≠ .full)) = d.ltu.pendingFull := by
          have pk : pass.kind ≠ .full := by
            intro x; rw [x] at g; exact g (by cases kind <;> decide)
          simp [pk]
        have k : ∀ l : Ltu, l.pendingRetest = false → l = { l with
            requests := if l.pendingRetest = true then [] else l.requests, pendingRetest := false,
            pendingSignal := l.pendingSignal, pendingFull := l.pendingFull } := by
          intro l hl
          cases l
          dsimp only at hl
          subst hl
          rfl
        have v : (if d.ltu.pendingFull = true ∧ pass.kind = .full then some (d.clock + 600000000)
            else d.ltu.fullTimer) = d.ltu.fullTimer := by
          have pk : pass.kind ≠ .full := by
            intro x; rw [x] at g; exact g (by cases kind <;> decide)
          rw [if_neg (by simp [pk])]
        rw [s, t, v]
        exact k d.ltu r

end Sys2Proof.Machine
end

