-- ==== Sys2Proof/Laws/Phases.lean ====
section
/-! SUPPORT. What the phase rules leave in each unit (`settlePhases`): the bay, the LTU before it looks at its passes
(`Device.lampsBefore`), the FTU with a read sequence asked for, CLC and HCU as they were. -/

namespace Sys2Proof.Machine

variable (d : Device)

/-! ### One move without coupling -/

/-- A move to a phase with an identified coach, unit by unit. -/
theorem setPhase_units {new : Phase} (h : new.identified = true) :
    (d.setPhase new).ltu = d.ltu.onPhase d.cu.phase new ∧ (d.setPhase new).ftu = d.ftu.onPhase d.cu.phase new
      ∧ (d.setPhase new).clc = d.clc ∧ (d.setPhase new).hcu = d.hcu ∧ (d.setPhase new).hp = d.hp
      ∧ (d.setPhase new).identity = d.identity ∧ (d.setPhase new).conf = d.conf
      ∧ (d.setPhase new).cu = (d.cuPhase new).cu := by
  have nd : new ≠ .departing := by rintro rfl; simp [Phase.identified] at h
  have nt : new.tornDown = false := by cases new <;> simp_all [Phase.identified, Phase.tornDown]
  have e : d.setPhase new = (d.cuPhase new).handPhase d.cu.phase new := by
    simp [Device.setPhase, Device.dropIdentity, nd, nt]
  have c : d.clc.onPhase new = d.clc := by cases new <;> first | rfl | simp [Phase.identified] at h
  have k : d.hcu.onPhase new = d.hcu := by cases new <;> first | rfl | simp [Phase.identified] at h
  have p : d.hp.onPhase new = d.hp := by cases new <;> first | rfl | simp [Phase.identified] at h
  have q : d.sc.onPhase new = d.sc := by cases new <;> first | rfl | simp [Phase.identified] at h
  rw [e]
  refine ⟨rfl, rfl, c, k, p, rfl, ?_, rfl⟩
  show (d.sc.onPhase new).config.getD _ = _
  rw [q]
  rfl

/-- The evaluations leave CLC and HP alone; of FTU, identity, plan and phase nothing changes. -/
theorem refresh_units : d.refresh.clc = d.clc ∧ d.refresh.ftu = d.ftu ∧ d.refresh.identity = d.identity
    ∧ d.refresh.conf = d.conf
    ∧ d.refresh.hcu = { d.hcu with faultLockout := d.refresh.hcu.faultLockout }
    ∧ d.refresh.cu = { d.cu with matchState := d.refresh.cu.matchState, blocks := d.refresh.cu.blocks }
    ∧ d.refresh.ltu = d.corroborate.ltu := ⟨rfl, rfl, rfl, rfl, rfl, rfl, rfl⟩

/-! ### The bay -/

/-- A bay that has just moved (R127, R128, R131, R136). -/
def Device.moved (d : Device) : Prop :=
  d.cu.retryHold = false ∧ d.cu.intent = (if d.cu.phase = .clearing then .awaiting else .none)
    ∧ d.cu.intentTimer = none ∧ d.cu.key = none ∧ d.cu.presence = none
    ∧ (d.cu.phase = .cleared → d.cu.spacing = none)

/-- The phase rules call for CLEARED at exit spacing 0 alone, with the spacing timer stopped (R126, R127). -/
theorem nextPhase_cleared (h : d.nextPhase = some .cleared) : d.conf.spacing = 0 ∧ d.cu.spacing = none := by
  unfold Device.nextPhase Device.fallBack at h
  repeat' split at h
  all_goals simp_all [Device.eligible]

/-- A move that the phase rules call for leaves a bay that has just moved, and the spacing timer as it stood. -/
theorem setPhase_moved {new : Phase} (h : d.nextPhase = some new) :
    (d.setPhase new).moved ∧ (d.setPhase new).cu.spacing = d.cu.spacing := by
  have nd := FollowedCore.nextPhase_ne_departing d h
  have c : (d.setPhase new).cu = (d.cuPhase new).cu := by
    unfold Device.setPhase Device.dropIdentity
    cases new <;> rfl
  have sp : new = .cleared → d.spacingTimer = none ∧ d.cu.spacing = none := by
    rintro rfl
    have k := nextPhase_cleared d h
    exact ⟨by simp [Device.spacingTimer, k.1], k.2⟩
  unfold Device.moved
  rw [c]
  refine ⟨⟨rfl, rfl, rfl, rfl, ?_, ?_⟩, ?_⟩
  · show (if new = .departing then _ else none) = none
    rw [if_neg nd]
  · intro e
    show (if new = .cleared then _ else d.cu.spacing) = none
    rw [if_pos (show new = .cleared from e)]; exact (sp e).1
  · show (if new = .cleared then d.spacingTimer else d.cu.spacing) = d.cu.spacing
    split
    · next e => rw [(sp e).1, (sp e).2]
    · rfl

/-- Once moved, the bay stays one that has just moved. -/
theorem settlePhases_moved (n : Nat) :
    (d.moved → (d.settlePhases n).moved) ∧ (d.settlePhases n).cu.spacing = d.cu.spacing := by
  induction n generalizing d with
  | zero => exact ⟨id, rfl⟩
  | succ n ih =>
    unfold Device.settlePhases
    split
    · exact ⟨id, rfl⟩
    · next new h =>
      have m := setPhase_moved _ h
      have i := ih (d.refresh.setPhase new)
      exact ⟨fun _ => i.1 m.1, i.2.trans m.2⟩

/-- The phase rules, with one move at least where one applies (R120, R125 to R128, R131, R132). -/
theorem settlePhases_cu (n : Nat) :
    (d.refresh.nextPhase = none → d.settlePhases (n + 1) = d.refresh)
    ∧ (d.refresh.nextPhase.isSome = true → (d.settlePhases (n + 1)).moved)
    ∧ (d.settlePhases (n + 1)).cu.spacing = d.cu.spacing := by
  refine ⟨?_, ?_, (settlePhases_moved d (n + 1)).2⟩
  · intro h
    rw [Device.settlePhases, h]
  · intro h
    rw [Device.settlePhases]
    split
    · next e => rw [e] at h; cases h
    · next new e => exact (settlePhases_moved _ n).1 (setPhase_moved _ e).1

/-- No move touches the aspect that is shown. -/
theorem setPhase_aspect (new : Phase) : (d.setPhase new).cu.aspect = d.cu.aspect
    ∧ (d.setPhase new).cu.lit = d.cu.lit ∧ (d.setPhase new).cu.flash = d.cu.flash := by
  unfold Device.setPhase Device.dropIdentity
  cases new <;> exact ⟨rfl, rfl, rfl⟩

theorem settlePhases_aspect (n : Nat) : (d.settlePhases n).cu.aspect = d.cu.aspect
    ∧ (d.settlePhases n).cu.lit = d.cu.lit ∧ (d.settlePhases n).cu.flash = d.cu.flash := by
  induction n generalizing d with
  | zero => exact ⟨rfl, rfl, rfl⟩
  | succ n ih =>
    unfold Device.settlePhases
    split
    · exact ⟨rfl, rfl, rfl⟩
    · next new h =>
      obtain ⟨i1, i2, i3⟩ := ih (d.refresh.setPhase new)
      obtain ⟨a1, a2, a3⟩ := setPhase_aspect d.refresh new
      exact ⟨i1.trans a1, i2.trans a2, i3.trans a3⟩

/-! ### Where the moves end -/

/-- The noPlan block of refreshed blocks. -/
theorem refresh_noPlan : d.refresh.cu.blocks.noPlan = (d.cu.phase.withCoach && d.cu.plan.isNone) := rfl

/-- A bay in COUPLED with an unmatched plan, or without one, stays. -/
theorem settlePhases_coupled (n : Nat) (p : d.cu.phase = .coupled) (m : d.evalMatch ≠ .matched) :
    d.settlePhases n = d.refresh := by
  cases n with
  | zero => rfl
  | succ n =>
    have e : d.refresh.nextPhase = none := by
      unfold Device.nextPhase
      rw [show d.refresh.cu.phase = .coupled from p]
      dsimp only
      rw [if_neg (show d.refresh.cu.matchState ≠ .matched from m)]
    rw [Device.settlePhases, e]

/-- The plan stays through a move other than to DEPARTING. -/
theorem setPhase_plan {new : Phase} (h : new.identified = true) : (d.setPhase new).cu.plan = d.cu.plan := by
  rw [(setPhase_units d h).2.2.2.2.2.2.2]
  show (if new = .departing then none else d.cu.plan) = d.cu.plan
  rw [if_neg (by rintro rfl; simp [Phase.identified] at h)]

/-- With a plan stored a bay in PREPARING..CLEARED stays among these. -/
theorem settlePhases_prepared (n : Nat) (p : d.cu.phase.prepared = true) (s : d.cu.plan.isSome = true) :
    (d.settlePhases n).cu.phase.prepared = true := by
  induction n generalizing d with
  | zero => exact p
  | succ n ih =>
    unfold Device.settlePhases
    split
    · exact p
    · next new h =>
      have b : d.refresh.cu.blocks.noPlan = false := by
        rw [refresh_noPlan]
        cases e : d.cu.plan with
        | none => rw [e] at s; cases s
        | some _ => simp
      have k : new.prepared = true := by
        unfold Device.nextPhase Device.fallBack at h
        rw [b] at h
        have q : d.refresh.cu.phase.prepared = true := p
        repeat' split at h
        all_goals (try cases h)
        all_goals simp_all [Phase.prepared]
      have i : new.identified = true := by cases new <;> simp_all [Phase.prepared, Phase.identified]
      exact ih _ (by rw [Stays.setPhase_phase]; exact k) (by rw [setPhase_plan _ i]; exact s)

/-- A move that the phase rules call for among the phases with a coach: to COUPLED from COUPLING, or from
PREPARING..CLEARED for want of a plan, and nowhere from there; or with a plan stored to one of PREPARING..CLEARED. -/
theorem nextPhase_where {new : Phase} (h : d.refresh.nextPhase = some new) (c : d.coupleNow = false) :
    d.cu.phase.withCoach = true ∧ new.identified = true
      ∧ ((new = .coupled ∧ d.cu.phase ≠ .coupled ∧ d.evalMatch ≠ .matched)
        ∨ (new.prepared = true ∧ d.cu.plan.isSome = true)) := by
  obtain ⟨i, w⟩ := Stays.nextPhase_identified _ h (by rw [Stays.refresh_coupleNow]; exact c)
  refine ⟨w, i, ?_⟩
  have np : d.cu.plan = none → d.evalMatch ≠ .matched := by
    intro e
    unfold Device.evalMatch
    rw [e]
    simp
  have pm : d.evalMatch = .matched → d.cu.plan.isSome = true := by
    intro e
    cases k : d.cu.plan with
    | none => exact absurd e (np k)
    | some _ => rfl
  have bn := refresh_noPlan d
  have ms : d.refresh.cu.matchState = d.evalMatch := rfl
  have ph : d.refresh.cu.phase = d.cu.phase := rfl
  unfold Device.nextPhase Device.fallBack at h
  rw [ms, bn, ph] at h
  rw [ph] at w
  generalize d.refresh.eligible = g at h
  generalize d.refresh.tooEarly = t at h
  generalize d.refresh.cu.blocks = b at h bn
  cases k : d.cu.plan with
  | none =>
    have := np k
    rw [k] at h
    generalize d.cu.phase = q at *
    cases q <;> simp [Phase.withCoach, this] at h w ⊢ <;> grind [Phase.prepared]
  | some _ =>
    rw [k] at h
    generalize d.cu.phase = q at *
    cases q <;> simp [Phase.withCoach] at h w ⊢ <;> grind [Phase.prepared]

/-! ### LTU and FTU -/

/-- The flags of a table that stays follow it once (R69). -/
theorem corroborated_idem (ftu : Ftu) (c : Channel) :
    (c.corroborated ftu).corroborated ftu = c.corroborated ftu ∧ (c.corroborated ftu).joins ftu = false := by
  unfold Channel.corroborated
  split
  · next h =>
    simp only [Channel.joins, Bool.and_eq_true] at h
    simp [Channel.joins, h]
  · next h =>
    split
    · next k =>
      simp only [Bool.and_eq_true, Bool.not_eq_true'] at k
      simp [Channel.joins, k]
    · next k => exact ⟨rfl, by simpa using h⟩

/-- Corroboration looks at the Fault Table alone. -/
theorem corroborated_congr {f g : Ftu} (h : f.table = g.table) :
    Channel.corroborated f = Channel.corroborated g ∧ Channel.joins f = Channel.joins g := by
  have e : ∀ n, f.corroborates n = g.corroborates n := by intro n; simp [Ftu.corroborates, h]
  constructor
  · funext c; simp [Channel.corroborated, Channel.joins, e]
  · funext c; simp [Channel.joins, e]

/-- What the LTU comes to before its passes while no coupling begins. -/
theorem lampsBefore_eq (c : d.coupleNow = false) (p : Phase) : d.lampsBefore p =
    { d.ltu with
      channels := d.ltu.channels.map (Channel.corroborated d.ftu),
      pendingRetest := d.ltu.pendingRetest || !(d.ltu.joining d.ftu).isEmpty,
      pendingFull := (d.ltu.pendingFull && !(d.cu.phase.prepared && !p.prepared))
        || ((decide (d.cu.phase = .coupling) || decide (d.cu.phase = .coupled)) && p.prepared),
      requests := if d.cu.phase.prepared && !p.prepared then d.corroborate.ltu.requests.filter (fun n => decide (16 < n))
        else d.corroborate.ltu.requests,
      stop := d.ltu.stop || ((d.cu.phase.prepared && !p.prepared) && d.ltu.stoppable),
      fullTimer := if d.cu.phase.prepared && !p.prepared then none else d.ltu.fullTimer } := by
  simp [Device.lampsBefore, c, Device.corroborate]

/-- The LTU at a move to a phase with an identified coach. -/
theorem onPhase_eq (ltu : Ltu) (old : Phase) {new : Phase} (h : new.identified = true) : ltu.onPhase old new =
    { ltu with
      pendingFull := (ltu.pendingFull && !(old.prepared && !new.prepared))
        || ((decide (old = .coupling) || decide (old = .coupled)) && decide (new = .preparing)),
      requests := if old.prepared && !new.prepared then ltu.requests.filter (fun n => decide (16 < n)) else ltu.requests,
      stop := ltu.stop || ((old.prepared && !new.prepared) && ltu.stoppable),
      fullTimer := if old.prepared && !new.prepared then none else ltu.fullTimer } := by
  cases new <;> simp [Phase.identified] at h <;> cases old <;>
    simp [Ltu.onPhase, Phase.prepared, Phase.tornDown, Ltu.leavePrepared]

/-- From COUPLING and COUPLED the phase rules enter PREPARING alone among the prepared phases (R125). -/
theorem nextPhase_enters {new : Phase} (h : d.nextPhase = some new) (k : new.prepared = true)
    (o : d.cu.phase = .coupling ∨ d.cu.phase = .coupled) : new = .preparing := by
  unfold Device.nextPhase at h
  rcases o with o | o <;> rw [o] at h <;> dsimp only at h <;> grind [Phase.prepared]

/-- The match state stays through a move (R6). -/
theorem setPhase_evalMatch {new : Phase} (w : d.cu.phase.withCoach = true) (i : new.identified = true) :
    (d.refresh.setPhase new).evalMatch = d.evalMatch := by
  have e := (setPhase_units d.refresh i).2.2.2.2.2.1
  have p := setPhase_plan d.refresh i
  have q : d.cu.phase ≠ .departing := by intro o; rw [o] at w; cases w
  have r : new ≠ .departing := by rintro rfl; cases i
  unfold Device.evalMatch
  rw [e, p, Stays.setPhase_phase]
  simp only [q, r, if_false]
  rfl

/-- The FTU at a move to a phase with an identified coach (R42). -/
theorem ftuOnPhase_eq (ftu : Ftu) (old : Phase) {new : Phase} (h : new.identified = true)
    (e : old = .coupling → new = .coupled ∨ new = .preparing) : ftu.onPhase old new =
    { ftu with reread := ftu.reread || (decide (old = .coupling) && decide (new ≠ .coupling)) } := by
  cases new <;> simp [Phase.identified] at h <;> cases old <;> simp [Ftu.onPhase] at e ⊢

/-- No channel joins twice (R69). -/
theorem joining_corroborated {f g : Ftu} (t : g.table = f.table) (ltu : Ltu) (l : List Channel)
    (h : ltu.channels = l.map (Channel.corroborated f)) : ltu.joining g = [] := by
  unfold Ltu.joining
  rw [(corroborated_congr t).2, h, List.map_eq_nil_iff, List.filter_eq_nil_iff]
  intro c m
  obtain ⟨b, _, rfl⟩ := List.mem_map.1 m
  simp [(corroborated_idem f b).2]

/-- One move more changes nothing of what the LTU comes to. -/
theorem lampsBefore_step {e : Device} {new p : Phase} (cd : d.coupleNow = false) (ce : e.coupleNow = false)
    (i : new.identified = true) (el : e.ltu = d.corroborate.ltu.onPhase d.cu.phase new)
    (et : e.ftu.table = d.ftu.table) (ep : e.cu.phase = new)
    (z : (new.prepared = true ∧ p.prepared = true
        ∧ (d.cu.phase = .coupling ∨ d.cu.phase = .coupled → new = .preparing))
      ∨ (new = .coupled ∧ p = .coupled ∧ d.cu.phase ≠ .coupled)) :
    e.lampsBefore p = d.lampsBefore p := by
  have el := el.trans (onPhase_eq _ _ i)
  have ch : e.ltu.channels = d.ltu.channels.map (Channel.corroborated d.ftu) := by rw [el]; rfl
  have j := joining_corroborated et e.ltu _ ch
  have cc : e.ltu.channels.map (Channel.corroborated e.ftu) = d.ltu.channels.map (Channel.corroborated d.ftu) := by
    rw [ch, List.map_map, (corroborated_congr et).1]
    exact List.map_congr_left fun c _ => (corroborated_idem d.ftu c).1
  have cr : e.corroborate.ltu.requests = e.ltu.requests := by
    show e.ltu.requests ++ (e.ltu.joining e.ftu).filter _ = _
    rw [j]; simp
  rw [lampsBefore_eq e ce p, lampsBefore_eq d cd p, cc, cr, j, ep]
  have st : d.corroborate.ltu.stoppable = d.ltu.stoppable := rfl
  rw [el, st]
  have l1 : Ltu.stoppable { d.corroborate.ltu with
      pendingFull := (d.corroborate.ltu.pendingFull && !(d.cu.phase.prepared && !new.prepared))
        || ((decide (d.cu.phase = .coupling) || decide (d.cu.phase = .coupled)) && decide (new = .preparing)),
      requests := if d.cu.phase.prepared && !new.prepared then
          d.corroborate.ltu.requests.filter (fun n => decide (16 < n)) else d.corroborate.ltu.requests,
      stop := d.corroborate.ltu.stop || ((d.cu.phase.prepared && !new.prepared) && d.ltu.stoppable),
      fullTimer := if d.cu.phase.prepared && !new.prepared then none else d.corroborate.ltu.fullTimer }
      = d.ltu.stoppable := rfl
  rw [l1]
  generalize d.ltu.stoppable = so
  rcases z with ⟨z1, z2, z3⟩ | ⟨rfl, rfl, z⟩
  · have n1 : new ≠ .coupling ∧ new ≠ .coupled := by constructor <;> rintro rfl <;> cases z1
    have n2 : d.cu.phase = .coupling ∨ d.cu.phase = .coupled → d.cu.phase.prepared = false := by
      rintro (o | o) <;> rw [o] <;> rfl
    by_cases o : d.cu.phase = .coupling ∨ d.cu.phase = .coupled
    · simp only [z2, n2 o, z3 o, Bool.not_true, Bool.and_false, Bool.false_and, Bool.not_false, Bool.and_true]
      rcases o with o | o <;> simp [o, Device.corroborate]
    · rw [not_or] at o
      simp [z1, z2, n1, o, Device.corroborate]
  · have v : (Phase.coupled.prepared) = false := rfl
    simp [v, z, Device.corroborate]

/-- The phase rules at LTU, FTU, CLC and HCU while no coupling begins (R42, R58, R69, R72, R77). -/
theorem settlePhases_units (n : Nat) (c : d.coupleNow = false) :
    (d.settlePhases n).ltu = d.lampsBefore (d.settlePhases n).cu.phase
    ∧ (d.settlePhases n).ftu = { d.ftu with reread := d.readAsked (d.settlePhases n).cu.phase }
    ∧ (d.settlePhases n).clc = d.clc
    ∧ (d.settlePhases n).hcu = { d.hcu with faultLockout := (d.settlePhases n).hcu.faultLockout } := by
  induction n generalizing d with
  | zero =>
    refine ⟨?_, ?_, rfl, rfl⟩
    · rw [lampsBefore_eq d c]
      show d.corroborate.ltu = _
      rw [show (d.settlePhases 0).cu.phase = d.cu.phase from rfl]
      cases d.cu.phase <;> simp [Device.corroborate, Phase.prepared]
    · rw [show (d.settlePhases 0).cu.phase = d.cu.phase from rfl]
      simp [Device.readAsked]; rfl
  | succ n ih =>
    rw [Device.settlePhases]
    split
    · refine ⟨?_, ?_, rfl, rfl⟩
      · rw [lampsBefore_eq d c]
        show d.corroborate.ltu = _
        rw [show d.refresh.cu.phase = d.cu.phase from rfl]
        cases d.cu.phase <;> simp [Device.corroborate, Phase.prepared]
      · rw [show d.refresh.cu.phase = d.cu.phase from rfl]
        simp [Device.readAsked]; rfl
    · next new h =>
      obtain ⟨w, i, z⟩ := nextPhase_where d h c
      obtain ⟨u1, u2, u3, u4, _, _, _, u8⟩ := setPhase_units d.refresh i
      have nc := Stays.not_coupleNow d.refresh i
      have ep : (d.refresh.setPhase new).cu.phase = new := Stays.setPhase_phase _ _
      have out : d.cu.phase = .coupling → new = .coupled ∨ new = .preparing := by
        intro o
        rcases z with ⟨z, _⟩ | ⟨z, _⟩
        · exact .inl z
        · exact .inr (nextPhase_enters _ h z (.inl o))
      have u2 := u2.trans (ftuOnPhase_eq d.ftu d.cu.phase i out)
      have fin : (new.prepared = true ∧ ((d.refresh.setPhase new).settlePhases n).cu.phase.prepared = true
            ∧ (d.cu.phase = .coupling ∨ d.cu.phase = .coupled → new = .preparing))
          ∨ (new = .coupled ∧ ((d.refresh.setPhase new).settlePhases n).cu.phase = .coupled
            ∧ d.cu.phase ≠ .coupled) := by
        rcases z with ⟨rfl, z1, z2⟩ | ⟨z1, z2⟩
        · right
          refine ⟨rfl, ?_, z1⟩
          rw [settlePhases_coupled _ n ep]
          · exact ep
          · rw [setPhase_evalMatch d w i]; exact z2
        · left
          refine ⟨z1, settlePhases_prepared _ n (by rw [ep]; exact z1) (by rw [setPhase_plan _ i]; exact z2), ?_⟩
          exact nextPhase_enters d.refresh h z1
      obtain ⟨i1, i2, i3, i4⟩ := ih (d.refresh.setPhase new) nc
      refine ⟨?_, ?_, ?_, ?_⟩
      · rw [i1]
        exact lampsBefore_step d c nc i u1 (by rw [u2]) ep fin
      · rw [i2, u2]
        have p2 : ((d.refresh.setPhase new).settlePhases n).cu.phase ≠ .coupling := by
          rcases fin with ⟨_, f, _⟩ | ⟨_, f, _⟩
          · intro o; rw [o] at f; cases f
          · rw [f]; decide
        have p3 : new ≠ .coupling := by rintro rfl; cases i
        simp [Device.readAsked, u2, p2, p3]
      · rw [i3, u3]; rfl
      · rw [i4, u4]; rfl

end Sys2Proof.Machine
end

