-- ==== Sys2Proof/Laws/Followed.lean ====
section
/-! SUPPORT. What the following-up of an event makes of the device it has left (`followed_close`). -/

namespace Sys2Proof.Machine

variable (d : Device)

/-! ### The operations after the phase rules, unit by unit -/

theorem forceClaim_eq : d.forceClaim =
    { d with
      hp := { d.hp with q := if d.claimForced then 0 else d.hp.q },
      hcu := { d.hcu with grant := if d.claimForced then 0 else d.hcu.grant } } := by
  unfold Device.forceClaim
  split
  · rfl
  · rfl

/-- The beginning of a read sequence offers its first exchange (R43). -/
theorem beginReadIfDue_eq : d.beginReadIfDue =
    { d with
      ftu := if d.readBegins then d.ftu.begin d.clock else d.ftu,
      clc := { d.clc with pendingRead := if d.readBegins then some (.openRead 0 32) else d.clc.pendingRead } } := by
  unfold Device.beginReadIfDue
  split
  · next h =>
    have u : d.clc.linkUp = true := by
      unfold Device.readBegins at h
      simp only [Bool.and_eq_true] at h
      exact h.2
    rw [Device.offerRead, if_pos (show (d.onFtu fun ftu => ftu.begin d.clock).clc.linkUp = true from u)]
    rfl
  · next h => rfl

theorem releasePull_eq : d.releasePull =
    { d with hcu := { d.hcu with
      pull := if d.hcu.pull ≠ .none ∧ d.drawsNothing = true then .none else d.hcu.pull,
      pullTimer := if d.hcu.pull ≠ .none ∧ d.drawsNothing = true then none else d.hcu.pullTimer } } := by
  unfold Device.releasePull
  split
  · next h => rfl
  · rfl

theorem followMonitor_eq : d.followMonitor =
    { d with hcu := { d.hcu with
      monitor := d.monitorWanted,
      monitorTimer := if d.monitorWanted = d.hcu.monitor then d.hcu.monitorTimer
        else d.monitorTimerFor d.monitorWanted } } := by
  unfold Device.followMonitor
  split
  · next h => rw [if_pos h.symm, ← h]
  · next h => rw [if_neg (fun k => h k.symm)]; rfl

theorem showAspect_eq : d.showAspect =
    { d with cu := { d.cu with
      aspect := d.aspectNow,
      lit := if d.cu.aspect = d.aspectNow then d.cu.lit else d.aspectNow.lamp != .dark,
      flash := if d.cu.aspect = d.aspectNow then d.cu.flash
        else if d.aspectNow.flashing then some (d.clock + 500000) else none } } := by
  unfold Device.showAspect
  split
  · next h => rw [← h]
  · rfl

/-- The marks of the sections, said once (R13). -/
theorem markChanges_eq (before : Device) : before.markChanges d =
    { d with
      sc := { d.sc with
        phase := if d.samePhaseContent before then d.sc.phase else d.sc.phase.touch,
        heat := if before.sc.heat.records && !d.sameHeatContent before then d.sc.heat.touch else d.sc.heat,
        lamp := if before.sc.lamp.records && !d.sameLampContent before then d.sc.lamp.touch else d.sc.lamp,
        fault := if before.sc.fault.records && !d.sameFaultContent before then d.sc.fault.touch else d.sc.fault },
      lu := { d.lu with
        unbegun := if d.samePhaseContent before then d.lu.unbegun else d.sc.mode.speaks || d.lu.unbegun } } := by
  have p : (if d.samePhaseContent before then d else d.touchPhase) =
      { d with
        sc := { d.sc with phase := if d.samePhaseContent before then d.sc.phase else d.sc.phase.touch },
        lu := { d.lu with
          unbegun := if d.samePhaseContent before then d.lu.unbegun else d.sc.mode.speaks || d.lu.unbegun } } := by
    split
    · rfl
    · unfold Device.touchPhase Device.requestNotice
      cases h : d.sc.mode.speaks
      · rw [if_neg (show ¬ ((d.onSc fun sc => { sc with phase := sc.phase.touch }).sc.mode.speaks = true) by
          rw [show (d.onSc fun sc => { sc with phase := sc.phase.touch }).sc.mode = d.sc.mode from rfl, h]; decide)]
        rfl
      · rw [if_pos (show (d.onSc fun sc => { sc with phase := sc.phase.touch }).sc.mode.speaks = true from h)]
        rfl
  have th : ∀ (e : Device) (c : Bool), (if c = true then e.touchHeat else e) =
      { e with sc := { e.sc with heat := if c = true then e.sc.heat.touch else e.sc.heat } } := by
    intro e c; split <;> rfl
  have tl : ∀ (e : Device) (c : Bool), (if c = true then e.touchLamp else e) =
      { e with sc := { e.sc with lamp := if c = true then e.sc.lamp.touch else e.sc.lamp } } := by
    intro e c; split <;> rfl
  have tf : ∀ (e : Device) (c : Bool), (if c = true then e.touchFault else e) =
      { e with sc := { e.sc with fault := if c = true then e.sc.fault.touch else e.sc.fault } } := by
    intro e c; split <;> rfl
  unfold Device.markChanges
  rw [p]
  dsimp only
  rw [th, tl, tf]
  rfl

/-- `e` differs from `d` in the section statuses and marks and in what asks for the line alone. -/
def MarksOnly (d e : Device) : Prop :=
  e = { d with
    sc := { d.sc with phase := e.sc.phase, heat := e.sc.heat, lamp := e.sc.lamp, fault := e.sc.fault },
    lu := { d.lu with unbegun := e.lu.unbegun, backoff := e.lu.backoff } }

namespace MarksOnly

theorem refl : MarksOnly d d := rfl

theorem trans {a b c : Device} (h : MarksOnly a b) (k : MarksOnly b c) : MarksOnly a c := by
  unfold MarksOnly at *
  rw [h] at k
  exact k

theorem markChanges (before : Device) : MarksOnly d (before.markChanges d) := by
  rw [markChanges_eq]
  rfl

theorem seekLine : MarksOnly d d.seekLine := by
  unfold Device.seekLine
  split <;> rfl

end MarksOnly

/-! ### The station when its lamp passes have been looked at -/

/-- The station when its lamp passes have been looked at, `d` being what the phase rules left. -/
def Device.lampsDone (d : Device) : Device := d.forceClaim.capStage.runLamps

/-- What a following-up leaves, in terms of the station when its lamp passes have been looked at. -/
structure Tail (e b : Device) : Prop where
  clock : b.clock = e.clock
  pins : b.pins = e.pins
  conf : b.conf = e.conf
  mode : b.sc.mode = e.sc.mode
  alarms : b.sc.alarms = e.sc.alarms
  identity : b.identity = e.identity
  ltu : b.ltu = e.ltu
  hp : b.hp = e.hp
  ftu : b.ftu = e.beginReadIfDue.ftu
  clc : b.clc = e.beginReadIfDue.clc.serve
  hcu : b.hcu = (e.watchPower).hcu
  cu : b.cu = { e.cu with aspect := b.cu.aspect, lit := b.cu.lit, flash := b.cu.flash }
  aspect : b.cu.aspect = b.aspectNow
    ∧ b.cu.lit = (if e.cu.aspect = b.cu.aspect then e.cu.lit else b.cu.aspect.lamp != .dark)
    ∧ b.cu.flash = if e.cu.aspect = b.cu.aspect then e.cu.flash
        else if b.cu.aspect.flashing then some (e.clock + 500000) else none

theorem close_tail (before : Device) : Tail (d.settlePhases 8).lampsDone (close before d) := by
  have m := (MarksOnly.markChanges d.settle before).trans (MarksOnly.seekLine _)
  show Tail _ (before.markChanges d.settle).seekLine
  generalize (before.markChanges d.settle).seekLine = b at m
  unfold Device.settle at m
  show Tail (d.settlePhases 8).forceClaim.capStage.runLamps b
  generalize (d.settlePhases 8).forceClaim.capStage.runLamps = e at m
  have w : (e.beginReadIfDue.onClc Clc.serve).watchPower =
      { e with ftu := e.beginReadIfDue.ftu, clc := e.beginReadIfDue.clc.serve, hcu := e.watchPower.hcu } := by
    rw [beginReadIfDue_eq]
    unfold Device.watchPower
    rw [followMonitor_eq, followMonitor_eq, releasePull_eq, releasePull_eq]
    rfl
  rw [w, showAspect_eq] at m
  rw [m]
  exact ⟨rfl, rfl, rfl, rfl, rfl, rfl, rfl, rfl, rfl, rfl, rfl, rfl, rfl, rfl, rfl⟩

/-! ### The lamp passes -/

/-- Four are more than the kinds that can be pending. -/
theorem pendingCount_lt (l : Ltu) : l.pendingCount < 4 := by
  unfold Ltu.pendingCount
  split <;> split <;> split <;> decide

/-- The unit with no stop to take effect serves the pending kinds as it stands. -/
theorem runLamps_noStop (h : (d.ltu.pass.isSome && d.stopFalls) = false) : d.runLamps = d.servePasses 4 := by
  have t : d.takeStop = d := by
    unfold Device.takeStop
    rw [show (d.ltu.stop && d.stopsAtOnce) = d.stopFalls from rfl, Bool.and_comm, h]
    rfl
  unfold Device.runLamps Device.serveLamps
  rw [t]

/-- The LTU before its passes, and the serving of the pending kinds that follows, if any. -/
theorem runLamps_cases :
    (∀ pass, d.ltu.pass = some pass → d.stopFalls = false → d.runLamps = d.servePasses 4)
    ∧ (d.ltu.pass.isSome = true → d.stopFalls = true →
        PassesServed d.stopPass d.runLamps ∧ Lowers d.stopPass.asksWindow d.stopPass d.runLamps)
    ∧ (d.ltu.pass = none → PassesServed d d.runLamps ∧ Lowers d.asksWindow d d.runLamps) := by
  refine ⟨?_, ?_, ?_⟩
  · intro pass p f
    exact runLamps_noStop d (by rw [f, Bool.and_false])
  · intro p f
    have t : d.takeStop = d.stopPass := by
      unfold Device.takeStop
      rw [show (d.ltu.stop && d.stopsAtOnce) = d.stopFalls from rfl, f, p]
      rfl
    unfold Device.runLamps Device.serveLamps
    rw [t]
    refine servePasses_served _ 4 ?_ (pendingCount_lt _)
    unfold Device.stopPass
    dsimp only
    split
    · rw [(releaseWindow_eq _).1]; rfl
    · rfl
  · intro p
    rw [runLamps_noStop d (by rw [p]; rfl)]
    exact servePasses_served _ 4 p (pendingCount_lt _)

/-- A stopped pass at the unit and at the HCU (R76, R78). -/
theorem stopPass_eq : d.stopPass.ltu = d.passStopped.ltu ∧ d.stopPass.hcu.window = d.passStopped.hcu.window
    ∧ d.stopPass.hcu.settling = d.passStopped.hcu.settling
    ∧ d.stopPass.clock = d.clock ∧ d.stopPass.cu = d.cu ∧ Releases d d.stopPass := by
  by_cases w : d.ltu.window = .waiting
  · have e : d.stopPass = d.dropPass.releaseWindow := by
      unfold Device.stopPass
      dsimp only
      rw [if_pos (show d.dropPass.ltu.window = .waiting from w)]
    have n : d.dropPass.ltu.window ≠ .none := by rw [show d.dropPass.ltu.window = d.ltu.window from rfl, w]; decide
    have e' : d.dropPass.releaseWindow = (d.dropPass.onLtu fun ltu => { ltu with window := .none }).hcuWindowRelease := by
      simp [Device.releaseWindow, n]
    rw [e, e']
    refine ⟨?_, ?_, ?_, ?_, ?_, ?_⟩
    · rw [hcuWindowRelease_ltu]; simp [Device.passStopped, Device.dropPass, Device.noteEnd, w]
    · rw [hcuWindowRelease_window]; simp [Device.passStopped, w]
    · rw [hcuWindowRelease_settling]
      show (if d.hcu.window = .none then d.hcu.settling else none) = _
      by_cases v : d.hcu.window = .none <;> simp [Device.passStopped, w, v]
    · rw [← e', LampSide.releaseWindow d.dropPass]; rfl
    · rw [← e', LampSide.releaseWindow d.dropPass]; rfl
    · rw [← e']
      have := releases_releaseWindow d.dropPass
      exact this
  · have e : d.stopPass = d.dropPass := by
      unfold Device.stopPass
      dsimp only
      rw [if_neg (show ¬ d.dropPass.ltu.window = .waiting from w)]
    rw [e]
    refine ⟨?_, ?_, ?_, rfl, rfl, Releases.refl d⟩
    all_goals simp [Device.passStopped, Device.dropPass, Device.noteEnd, w]

/-- What the serving of the pending kinds looks at: the kind, and whether it asks for the window. -/
theorem served_congr {d d' : Device} (l : d'.ltu = d.ltu) (p : d'.cu.phase = d.cu.phase) :
    d'.kindServed = d.kindServed ∧ d'.asksWindow = d.asksWindow := by
  have ps : ∀ kind, d'.passSet kind = d.passSet kind := fun kind =>
    passSet_congr p (by rw [l]) kind (.inr (by rw [l]))
  have ks : d'.kindServed = d.kindServed := by unfold Device.kindServed; rw [l, ps, ps, ps]
  refine ⟨ks, ?_⟩
  unfold Device.asksWindow
  simp only [ks, l, ps]

/-- The unit whose pass in flight has not begun, and the kind it gives way to, look at the unit, the clock and the
phase. -/
theorem kindBefore_congr {d d' : Device} (l : d'.ltu = d.ltu) (c : d'.clock = d.clock)
    (p : d'.cu.phase = d.cu.phase) (pass : Pass) :
    (d'.unbegin pass).ltu = (d.unbegin pass).ltu ∧ d'.kindBefore pass = d.kindBefore pass := by
  have u : (d'.unbegin pass).ltu = (d.unbegin pass).ltu := by
    show d'.ltu.unbegin d'.cu.phase.prepared pass = d.ltu.unbegin d.cu.phase.prepared pass
    rw [l, p]
  refine ⟨u, ?_⟩
  have ps : ∀ kind, (d'.unbegin pass).passSet kind = (d.unbegin pass).passSet kind := fun kind =>
    passSet_congr (show (d'.unbegin pass).cu.phase = (d.unbegin pass).cu.phase from p) (by rw [u]) kind
      (.inr (by rw [u]))
  unfold Device.kindBefore
  rw [l, c, ps, ps]

/-- What the serving of the pending kinds looks at and writes. -/
theorem PassesServed.congr {d d' e e' : Device} (h : PassesServed d e) (l : d'.ltu = d.ltu)
    (w : d'.hcu.window = d.hcu.window) (s : d'.hcu.settling = d.hcu.settling) (c : d'.clock = d.clock)
    (p : d'.cu.phase = d.cu.phase) (l' : e'.ltu = e.ltu)
    (w' : e'.hcu.window = e.hcu.window) (s' : e'.hcu.settling = e.hcu.settling) : PassesServed d' e' := by
  have ps : ∀ kind, d'.passSet kind = d.passSet kind := fun kind =>
    passSet_congr p (by rw [l]) kind (.inr (by rw [l]))
  obtain ⟨ks, as⟩ := served_congr l p
  constructor
  · rw [l', ks, h.pass]
    congr 1
    funext kind
    rw [ps]
  · rw [l', l, ks]; exact h.pending
  · rw [l', l]; exact h.requests
  · rw [l', l, c, ks, ps]; exact h.full
  · rw [l', l]; exact h.rest
  · rw [l', l, ks, c]; exact h.ended
  · rw [l', l, ks]; exact h.met
  · rw [l', l, w, w', c]; exact h.released
  · rw [l', l, w, w', c, as, s', s]; exact h.windowed

/-! ### Claim, grant and stage -/

/-- What the forcing of the claim, the caps and the lamp passes write. -/
theorem lampsDone_eq : d.lampsDone =
    { d with
      sc := { d.sc with heat := d.lampsDone.sc.heat, lamp := d.lampsDone.sc.lamp }, ltu := d.lampsDone.ltu,
      hp := { d.hp with q := if d.claimForced then 0 else d.hp.q },
      hcu := { d.hcu with
        grant := if d.claimForced then 0 else d.hcu.grant, stage := d.lampsDone.hcu.stage,
        target := d.lampsDone.hcu.target, raise := d.lampsDone.hcu.raise, window := d.lampsDone.hcu.window,
        settling := d.lampsDone.hcu.settling } } := by
  have h := LampSide.runLamps d.forceClaim.capStage
  unfold LampSide at h
  rw [show d.forceClaim.capStage.runLamps = d.lampsDone from rfl] at h
  generalize d.lampsDone = e at h
  rw [h, forceClaim_eq]
  rfl

/-- A bay that has just moved, and one that stays (R120, R127, R128, R131, R136, R138). -/
theorem close_bay (before : Device) : BayFollows d (close before d) := by
  have t := close_tail d before
  generalize close before d = b at t
  have ec : (d.settlePhases 8).lampsDone.cu = (d.settlePhases 8).cu := by rw [lampsDone_eq]
  have ek : (d.settlePhases 8).lampsDone.clock = d.clock := by
    rw [lampsDone_eq]; exact (FollowedCore.settlePhases d 8).clock
  obtain ⟨s1, s2, s3⟩ := settlePhases_cu d 7
  have tc := t.cu
  have ta := t.aspect
  rw [ec, ek] at ta
  rw [ec] at tc
  have asp : (d.settlePhases 8).cu.aspect = d.cu.aspect ∧ (d.settlePhases 8).cu.lit = d.cu.lit
      ∧ (d.settlePhases 8).cu.flash = d.cu.flash := settlePhases_aspect d 8
  constructor
  · intro h
    rw [tc, s1 h]
    rfl
  · intro h
    obtain ⟨m1, m2, m3, m4, m5, m6⟩ := s2 h
    rw [tc]
    refine ⟨m1, m2, m3, m4, m5, ?_⟩
    show (d.settlePhases 8).cu.spacing = if (d.settlePhases 8).cu.phase = .cleared then none else d.cu.spacing
    split
    · next k => exact m6 k
    · exact s3
  · rw [asp.1, asp.2.1, asp.2.2] at ta
    obtain ⟨a1, a2, a3⟩ := ta
    refine ⟨a1, ?_, ?_⟩
    · intro k
      rw [a2, a3, if_pos k, if_pos k]
      exact ⟨rfl, rfl⟩
    · intro k
      rw [a2, a3, if_neg k, if_neg k]
      refine ⟨?_, rfl⟩
      cases b.cu.aspect.lamp <;> rfl

/-- The phase a following-up leaves is the one the phase rules came to. -/
theorem close_phase (before : Device) : (close before d).cu.phase = (d.settlePhases 8).cu.phase := by
  have t := (close_tail d before).cu
  rw [t, lampsDone_eq]

/-- A read sequence that can begin, and the arbiter (R32, R42, R43). -/
theorem close_link (before : Device) (c : d.coupleNow = false) : LinkFollows d (close before d) := by
  have p := close_phase d before
  have t := close_tail d before
  generalize close before d = b at t p
  obtain ⟨_, u2, u3, _⟩ := settlePhases_units d 8 c
  have k := (FollowedCore.settlePhases d 8).clock
  have r : (d.settlePhases 8).lampsDone.readBegins = d.readStarts b.cu.phase := by
    rw [lampsDone_eq]
    unfold Device.readBegins
    show ((d.settlePhases 8).ftu.reread && _ && _ && (d.settlePhases 8).clc.linkUp) = _
    rw [u2, u3, p]
    rfl
  have f := t.ftu
  have l := t.clc
  rw [beginReadIfDue_eq, r] at f l
  have ef : (d.settlePhases 8).lampsDone.ftu = (d.settlePhases 8).ftu := by rw [lampsDone_eq]
  have el : (d.settlePhases 8).lampsDone.clc = (d.settlePhases 8).clc := by rw [lampsDone_eq]
  have ek : (d.settlePhases 8).lampsDone.clock = d.clock := by rw [lampsDone_eq]; exact k
  constructor
  · rw [f]
    dsimp only
    rw [ef, ek, u2, p]
    split
    · rfl
    · rfl
  · rw [l]
    dsimp only
    rw [el, u3]

/-- The LTU before its passes, coupling or not. -/
theorem settlePhases_lamps : (d.settlePhases 8).ltu = d.lampsBefore (d.settlePhases 8).cu.phase
    ∧ (d.settlePhases 8).hcu.window = (if d.coupleNow = true then .none else d.hcu.window)
    ∧ (d.settlePhases 8).hcu.settling = (if d.coupleNow = true then none else d.hcu.settling) := by
  by_cases c : d.coupleNow = true
  · have e := JustCoupling.settlePhases c 6
    rw [e, if_pos c, if_pos c]
    refine ⟨?_, rfl, rfl⟩
    have old : d.cu.phase = .vacant ∨ d.cu.phase = .departing := by
      unfold Device.coupleNow at c
      simp only [Bool.and_eq_true, Bool.or_eq_true, beq_iff_eq] at c
      exact c.1.1
    have j : ∀ ltu : Ltu, ltu.joining Ftu.reset = [] := by
      intro ltu
      unfold Ltu.joining
      rw [List.map_eq_nil_iff, List.filter_eq_nil_iff]
      intro x _
      simp [Channel.joins, Ftu.corroborates, Ftu.reset]
    have l : (d.refresh.setPhase .coupling).ltu = d.corroborate.ltu.tearDown := by
      show d.corroborate.ltu.onPhase d.cu.phase .coupling = _
      rcases old with o | o <;> rw [o] <;> rfl
    have f : (d.refresh.setPhase .coupling).ftu = Ftu.reset := rfl
    have g : ∀ x : Device, x.refresh.ltu = x.corroborate.ltu := fun _ => rfl
    have ph : (d.refresh.setPhase .coupling).refresh.cu.phase = .coupling := rfl
    rw [g, ph]
    unfold Device.corroborate
    simp only [Device.onLtu_ltu, l, f, j]
    unfold Device.lampsBefore
    rcases old with o | o <;>
      simp [o, c, Ltu.tearDown, Device.corroborate, Phase.prepared]
  · have c : d.coupleNow = false := by simpa using c
    obtain ⟨u1, _, _, u4⟩ := settlePhases_units d 8 c
    rw [u4, if_neg (by simp [c]), if_neg (by simp [c])]
    exact ⟨u1, rfl, rfl⟩

/-- The LTU and its passes (R58, R64, R69 to R78). -/
theorem close_lamps (before : Device) : LampsFollow d (close before d) := by
  have p := close_phase d before
  have t := close_tail d before
  generalize close before d = b at t p
  obtain ⟨l1, l2, l3⟩ := settlePhases_lamps d
  have kc := (FollowedCore.settlePhases d 8).clock
  generalize d.settlePhases 8 = e0 at *
  -- the station when the unit looks at its passes
  have g1 : e0.forceClaim.capStage.ltu = e0.ltu := by rw [forceClaim_eq]; rfl
  have g2 : e0.forceClaim.capStage.hcu.window = e0.hcu.window := by rw [forceClaim_eq]; rfl
  have g3 : e0.forceClaim.capStage.hcu.settling = e0.hcu.settling := by rw [forceClaim_eq]; rfl
  have g4 : e0.forceClaim.capStage.clock = e0.clock := by rw [forceClaim_eq]; rfl
  have g5 : e0.forceClaim.capStage.cu = e0.cu := by rw [forceClaim_eq]; rfl
  have r0 : ∀ pass, e0.forceClaim.capStage.ltu.pass = some pass → e0.forceClaim.capStage.stopFalls = false →
      e0.forceClaim.capStage.runLamps = e0.forceClaim.capStage.servePasses 4 :=
    (runLamps_cases e0.forceClaim.capStage).1
  obtain ⟨_, r2, r3⟩ := runLamps_cases e0.forceClaim.capStage
  have sv := fun pass (x : e0.forceClaim.capStage.ltu.pass = some pass) =>
    servePasses_beside e0.forceClaim.capStage 4 x (pendingCount_lt _)
  have ed : e0.lampsDone = e0.forceClaim.capStage.runLamps := rfl
  have ek : e0.lampsDone.clock = e0.clock := by rw [lampsDone_eq]
  rw [ed] at t ek
  generalize e0.forceClaim.capStage.runLamps = e at t ek r0 r2 r3
  have hw : b.hcu.window = e.hcu.window ∧ b.hcu.settling = e.hcu.settling := by
    rw [t.hcu]
    unfold Device.watchPower
    rw [followMonitor_eq, releasePull_eq]
    exact ⟨rfl, rfl⟩
  generalize e0.forceClaim.capStage = g at *
  have al : (d.atPasses b).ltu = g.ltu := by rw [g1, l1, ← p]; rfl
  have aw : (d.atPasses b).hcu.window = g.hcu.window := by rw [g2, l2]; rfl
  have as : (d.atPasses b).hcu.settling = g.hcu.settling := by rw [g3, l3]; rfl
  have ac : (d.atPasses b).clock = g.clock := by rw [g4]; exact t.clock.trans ek
  have bc : b.clock = g.clock := ac
  have ap : (d.atPasses b).cu.phase = g.cu.phase := by rw [g5, ← p]; rfl
  have af : (d.atPasses b).stopFalls = g.stopFalls := by unfold Device.stopFalls; rw [al, ac]
  have kb := kindBefore_congr al ac ap
  constructor
  · intro pass h1 h2 h3
    rw [(kb pass).2] at h3
    rw [al] at h1
    rw [af] at h2
    obtain ⟨k1, k2⟩ := (sv pass h1).1 h3
    rw [← r0 pass h1 h2] at k1 k2
    rw [al, aw, as, bc, t.ltu, hw.1, hw.2, k1, k2]
    exact ⟨rfl, rfl, rfl⟩
  · intro pass h1 h2 h3
    rw [(kb pass).2] at h3
    rw [al] at h1
    rw [af] at h2
    have k := ((sv pass h1).2 h3).1
    rw [← r0 pass h1 h2] at k
    exact k.congr (kb pass).1 aw as ac ap t.ltu hw.1 hw.2
  · intro h1 h2
    rw [al] at h1
    rw [af] at h2
    obtain ⟨k, _⟩ := r2 h1 h2
    obtain ⟨s1, s2, s5, s3, s4, _⟩ := stopPass_eq g
    refine k.congr ?_ ?_ ?_ ?_ ?_ t.ltu hw.1 hw.2
    · rw [s1]; simp only [Device.passStopped, al, ac]
    · rw [s2]; simp only [Device.passStopped, al, aw]
    · rw [s5]; simp only [Device.passStopped, al, aw, as]
    · rw [s3]; exact ac
    · rw [s4]; exact ap
  · intro h
    rw [al] at h
    exact (r3 h).1.congr al aw as ac ap t.ltu hw.1 hw.2

/-! ### The heater -/

/-- What the target stage is worked out from, the window apart. -/
structure SameCaps (f e : Device) : Prop where
  zero : e.capZero = f.capZero
  rejoin : e.hcu.rejoinCap = f.hcu.rejoinCap
  grant : e.grantStage = f.grantStage
  window : e.windowStage = f.windowStage

/-- The target stage with and without the window cap (R102, R103). -/
theorem SameCaps.target {f e : Device} (h : SameCaps f e) :
    (e.hcu.window = f.hcu.window → e.targetStage = f.targetStage)
    ∧ (e.hcu.window ≠ .none → f.hcu.window ≠ .none → e.targetStage = f.targetStage)
    ∧ (e.hcu.window ≠ .none → e.targetStage ≤ f.targetStage)
    ∧ (e.hcu.window = .none → f.hcu.window ≠ .none → f.targetStage = min e.targetStage e.windowStage) := by
  have t : ∀ d : Device, d.targetStage = if d.capZero then 0 else
      match d.hcu.rejoinCap with
      | none => if d.hcu.window = .none then d.grantStage else min d.grantStage d.windowStage
      | some cap => min (if d.hcu.window = .none then d.grantStage else min d.grantStage d.windowStage) cap := by
    intro d
    unfold Device.targetStage Device.underRejoin Device.underWindow Hcu.windowFlag
    cases d.hcu.window <;> rfl
  rw [t e, t f, h.zero, h.rejoin, h.grant, h.window]
  cases f.capZero
  · cases f.hcu.rejoinCap <;> grind
  · simp

/-- The HCU's fields that the phase rules leave in either case. -/
theorem settlePhases_hcu : (d.settlePhases 8).hcu =
    { d.hcu with
      faultLockout := (d.settlePhases 8).hcu.faultLockout, window := (d.settlePhases 8).hcu.window,
      settling := (d.settlePhases 8).hcu.settling, energy := (d.settlePhases 8).hcu.energy,
      sat := (d.settlePhases 8).hcu.sat } := by
  by_cases c : d.coupleNow = true
  · rw [JustCoupling.settlePhases c 6]; rfl
  · rw [(settlePhases_units d 8 (by simpa using c)).2.2.2]

/-- The unit asks the HCU for the window when it looks at its passes. -/
def Device.lampsAsk (d : Device) : Bool :=
  match d.ltu.pass with
  | none => d.asksWindow
  | some pass =>
    if d.stopFalls then d.passStopped.asksWindow
    else (d.kindBefore pass).isSome && (d.unbegin pass).asksWindow

/-- It looks at the unit, the clock and the phase. -/
theorem lampsAsk_congr {d d' : Device} (l : d'.ltu = d.ltu) (c : d'.clock = d.clock)
    (p : d'.cu.phase = d.cu.phase) : d'.lampsAsk = d.lampsAsk := by
  have f : d'.stopFalls = d.stopFalls := by unfold Device.stopFalls; rw [l, c]
  have s : d'.passStopped.asksWindow = d.passStopped.asksWindow :=
    (served_congr (d' := d'.passStopped) (d := d.passStopped) (by simp only [Device.passStopped, l, c]) p).2
  unfold Device.lampsAsk
  rw [l, f, s, (served_congr l p).2]
  cases d.ltu.pass with
  | none => rfl
  | some pass =>
    obtain ⟨u, k⟩ := kindBefore_congr l c p pass
    have a := (served_congr (d' := d'.unbegin pass) (d := d.unbegin pass) u p).2
    dsimp only
    rw [k, a]

/-- The lamp passes ask for the window, or leave or release it (R110, R111). -/
theorem runLamps_lowers : Lowers d.lampsAsk d d.runLamps := by
  obtain ⟨r1, r2, r3⟩ := runLamps_cases d
  unfold Device.lampsAsk
  cases p : d.ltu.pass with
  | none => exact (r3 p).2
  | some pass =>
    have i : d.ltu.pass.isSome = true := by rw [p]; rfl
    cases s : d.stopFalls with
    | true =>
      have k := stopPass_eq d
      have a := (served_congr (d' := d.stopPass) (d := d.passStopped) k.1 (by rw [k.2.2.2.2.1]; rfl)).2
      have := (r2 i s).2
      rw [a] at this
      exact k.2.2.2.2.2.lowers this
    | false =>
      rw [r1 pass p s]
      have sv := servePasses_beside d 4 p (pendingCount_lt _)
      dsimp only
      rw [if_neg (by decide)]
      cases k : d.kindBefore pass with
      | none => exact Releases.of_hcu (sv.1 k).1
      | some kind => exact (sv.2 (by rw [k]; rfl)).2

theorem keepRaise_iff (t r : Nat) (p : Option Nat) : keepRaise t p = some r ↔ p = some r ∧ r ≤ t := by
  unfold keepRaise
  cases p with
  | none => simp
  | some x => dsimp only; split <;> simp <;> grind

/-- Target, stage and pending raise when the lamp passes have been looked at. -/
theorem lampsDone_lowered {e0 e : Device} (h : e = e0.lampsDone) :
    (e.hcu.target =
        if e0.forceClaim.capStage.lampsAsk = true then e.targetStage
        else min e0.hcu.target
          (if e0.hcu.window ≠ .none ∧ e.hcu.window = .none then min e.targetStage e.windowStage else e.targetStage))
      ∧ e.hcu.stage = min (min e0.hcu.stage e0.hcu.target) e.hcu.target
      ∧ ∀ r, e.hcu.raise = some r ↔ e0.hcu.raise = some r ∧ r ≤ e0.hcu.target ∧ r ≤ e.hcu.target := by
  have q := lampsDone_eq e0
  have lo := runLamps_lowers e0.forceClaim.capStage
  rw [show e0.forceClaim.capStage.runLamps = e0.lampsDone from rfl, ← h] at lo
  rw [← h] at q
  have cz : SameCaps e0.forceClaim e := by
    constructor
    · rw [q, forceClaim_eq]; rfl
    · rw [q, forceClaim_eq]
    · rw [q, forceClaim_eq]; rfl
    · rw [q, forceClaim_eq]; rfl
  have fw : e0.forceClaim.hcu.window = e0.hcu.window := by rw [forceClaim_eq]
  obtain ⟨t1, t2, t3, t4⟩ := cz.target
  rw [fw] at t1 t2 t4
  have gt : e0.forceClaim.capStage.hcu.target = min e0.hcu.target e0.forceClaim.targetStage := by
    rw [forceClaim_eq]; rfl
  have gs : e0.forceClaim.capStage.hcu.stage = min e0.hcu.stage e0.forceClaim.capStage.hcu.target := by
    rw [forceClaim_eq]; rfl
  have gr : e0.forceClaim.capStage.hcu.raise = keepRaise e0.forceClaim.capStage.hcu.target e0.hcu.raise := by
    rw [forceClaim_eq]; rfl
  have gw : e0.forceClaim.capStage.hcu.window = e0.hcu.window := by rw [forceClaim_eq]; rfl
  generalize e0.forceClaim.capStage = g at *
  generalize e0.forceClaim.targetStage = ft at *
  unfold Lowers at lo
  by_cases ask : g.lampsAsk = true
  · rw [if_pos ask] at lo
    rw [if_pos ask]
    obtain ⟨w, s1, s2, s3⟩ := lo
    have le := t3 w
    refine ⟨s1, ?_, fun r => ?_⟩
    · rw [s2, gs, gt, s1]
      omega
    · rw [s3, gr, keepRaise_iff, keepRaise_iff, gt, s1]
      constructor
      · rintro ⟨⟨k1, k2⟩, k3⟩; exact ⟨k1, by omega, k3⟩
      · rintro ⟨k1, k2, k3⟩; exact ⟨⟨k1, by omega⟩, k3⟩
  · rw [if_neg ask] at lo
    rw [if_neg ask]
    obtain ⟨⟨s1, s2, s3⟩, w⟩ := lo
    rw [gw] at w
    refine ⟨?_, ?_, fun r => ?_⟩
    · rw [s2, gt]
      split
      · next k => rw [t4 k.2 k.1]
      · next k =>
        rcases w with w | w
        · rw [t1 w]
        · have : e0.hcu.window = .none := by
            by_contra n
            exact k ⟨n, w⟩
          rw [t1 (w.trans this.symm)]
    · rw [s1, s2, gs, gt]
      omega
    · rw [s3, s2, gr, keepRaise_iff, gt]
      constructor
      · rintro ⟨k1, k2⟩; exact ⟨k1, by omega, k2⟩
      · rintro ⟨k1, _, k2⟩; exact ⟨k1, k2⟩

/-- The HCU after a following-up (R93, R102, R104, R112, R113). -/
theorem close_heater (before : Device) : HeaterFollows d (close before d) := by
  have p := close_phase d before
  have t := close_tail d before
  generalize close before d = b at t p
  have h0 := settlePhases_hcu d
  have w0 := (settlePhases_lamps d).2.1
  have l0 := (settlePhases_lamps d).1
  have kc := (FollowedCore.settlePhases d 8).clock
  have cz : d.coupleNow = true → (d.settlePhases 8).capZero = true := by
    intro c
    rw [JustCoupling.settlePhases c 6]
    simp [Device.capZero, (JustCoupling.enter d.refresh).phase, Phase.prepared]
  generalize d.settlePhases 8 = e0 at *
  have q := lampsDone_eq e0
  have lo := lampsDone_lowered (e0 := e0) rfl
  have ask : d.windowAsked b = e0.forceClaim.capStage.lampsAsk := by
    refine lampsAsk_congr (d' := d.atPasses b) ?_ ?_ ?_
    · rw [forceClaim_eq]
      show d.lampsBefore b.cu.phase = e0.ltu
      rw [l0, p]
    · rw [forceClaim_eq]
      show b.clock = e0.clock
      rw [t.clock, q]
    · rw [forceClaim_eq]
      show b.cu.phase = e0.cu.phase
      exact p
  rw [← ask] at lo
  generalize e0.lampsDone = e at *
  have hb : b.hcu = { e.hcu with
      monitor := b.hcu.monitor, monitorTimer := b.hcu.monitorTimer, pull := b.hcu.pull,
      pullTimer := b.hcu.pullTimer } := by
    rw [t.hcu]
    unfold Device.watchPower
    rw [followMonitor_eq, releasePull_eq]
  have tcs : b.clc.tcState = e.clc.tcState := by
    rw [t.clc, beginReadIfDue_eq, Stays.serve_eq]
  have cu2 : b.cu.phase = e.cu.phase ∧ b.cu.matchState = e.cu.matchState := by rw [t.cu]; exact ⟨rfl, rfl⟩
  have cf : b.claimForced = e0.claimForced := by
    have : b.claimForced = e.claimForced := by
      unfold Device.claimForced
      rw [cu2.1, cu2.2, t.mode, tcs, hb]
      rfl
    rw [this, q]
    rfl
  have sc : SameCaps e b := by
    constructor
    · unfold Device.capZero; rw [cu2.1, cu2.2, t.mode, t.identity, hb]; rfl
    · rw [hb]
    · unfold Device.grantStage; rw [t.identity, hb]
    · unfold Device.windowStage; rw [t.identity, t.conf]
  have bw : b.hcu.window = e.hcu.window := by rw [hb]
  have bt : b.targetStage = e.targetStage := sc.target.1 bw
  obtain ⟨lo1, lo2, lo3⟩ := lo
  have a1 : e0.hcu.stage = d.hcu.stage ∧ e0.hcu.target = d.hcu.target ∧ e0.hcu.raise = d.hcu.raise
      ∧ e0.hcu.grant = d.hcu.grant ∧ e0.hcu.pull = d.hcu.pull ∧ e0.hcu.pullTimer = d.hcu.pullTimer
      ∧ e0.hcu.monitor = d.hcu.monitor ∧ e0.hcu.monitorTimer = d.hcu.monitorTimer := by
    rw [h0]; exact ⟨rfl, rfl, rfl, rfl, rfl, rfl, rfl, rfl⟩
  obtain ⟨a1, a2, a3, a4, a5, a6, a7, a8⟩ := a1
  have e5 : e.hcu.pull = d.hcu.pull ∧ e.hcu.pullTimer = d.hcu.pullTimer ∧ e.hcu.monitor = d.hcu.monitor
      ∧ e.hcu.monitorTimer = d.hcu.monitorTimer ∧ e.hcu.grant = (if e0.claimForced then 0 else e0.hcu.grant) := by
    rw [q]; exact ⟨a5, a6, a7, a8, rfl⟩
  obtain ⟨e5, e6, e7, e8, e9⟩ := e5
  have tg : b.hcu.target = e.hcu.target := by rw [hb]
  have mf : b.monitorFull = e.monitorFull := by unfold Device.monitorFull; rw [t.identity]
  constructor
  · rw [hb]
    show e.hcu.grant = _
    rw [cf, e9, a4]
  · rw [tg, lo1, a2, bt, bw, sc.window]
    by_cases k : d.windowAsked b = true
    · rw [if_pos k, if_pos k]
    rw [if_neg k, if_neg k]
    by_cases c : d.coupleNow = true
    · rw [if_pos c] at w0
      have z : e.targetStage = 0 := by
        have : e.capZero = e0.capZero := by rw [q]; rfl
        unfold Device.targetStage
        rw [this, cz c, if_pos rfl]
      rw [z]
      simp
    · rw [if_neg c] at w0
      rw [w0]
  · rw [tg, hb]
    show e.hcu.stage = _
    rw [lo2, a1, a2]
  · intro r
    rw [tg, hb]
    show e.hcu.raise = some r ↔ _
    rw [lo3 r, a3, a2]
  · rw [mf, t.pins, t.hcu]
    unfold Device.watchPower
    rw [followMonitor_eq, releasePull_eq]
    dsimp only
    rw [e5, e6]
    constructor
    · rintro (k | k)
      · simp [k]
      · have : e.drawsNothing = false := by simp [Device.drawsNothing]; omega
        simp [this]
    · intro k1 k2
      have : e.drawsNothing = true := by simp [Device.drawsNothing, k2]
      simp [k1, this]
  · have mw : b.hcu.monitor = b.monitorWanted ∧ b.hcu.monitorTimer =
        (if b.hcu.monitor = e.hcu.monitor then e.hcu.monitorTimer else e.monitorTimerFor b.hcu.monitor) := by
      have m : e.releasePull.monitorWanted = b.monitorWanted := by
        unfold Device.monitorWanted Device.monitorWorks Device.overdrawn Device.draws Device.stagePower
        rw [mf, t.conf, t.mode, t.identity, t.pins, t.hcu]
        unfold Device.watchPower
        rw [followMonitor_eq]
        rw [releasePull_eq]
        rfl
      have m1 : b.hcu.monitor = e.releasePull.monitorWanted := by
        rw [t.hcu]
        unfold Device.watchPower
        rw [followMonitor_eq]
      refine ⟨m1.trans m, ?_⟩
      rw [m1, t.hcu]
      unfold Device.watchPower
      rw [followMonitor_eq]
      rw [releasePull_eq]
      rfl
    obtain ⟨m1, m2⟩ := mw
    refine ⟨m1, ?_⟩
    rw [m2, e7, e8]
    have ek : e.clock = d.clock := by rw [q]; exact kc
    split
    · rfl
    · cases b.hcu.monitor
      · rfl
      · show some (e.clock + 1000000) = _
        rw [ek]
      · show some (e.clock + 2000000) = _
        rw [ek]

/-! ### The line -/

/-- A move leaves the Line Unit alone. -/
theorem setPhase_lu (new : Phase) : (d.setPhase new).lu = d.lu := by
  have a : ∀ e : Device, e.applyMask.lu = e.lu := fun _ => rfl
  have b : ∀ e : Device, (e.dropIdentity new).lu = e.lu := by
    intro e
    unfold Device.dropIdentity
    split <;> rfl
  unfold Device.setPhase
  dsimp only
  split
  · rw [a, b]; rfl
  · rw [b]; rfl

/-- The phase rules leave the Line Unit alone. -/
theorem settlePhases_lu (n : Nat) : (d.settlePhases n).lu = d.lu := by
  induction n generalizing d with
  | zero => rfl
  | succ n ih =>
    unfold Device.settlePhases
    split
    · rfl
    · next new _ => exact (ih (d.refresh.setPhase new)).trans (setPhase_lu d.refresh new)

/-- The access to the line (R144). -/
theorem close_backoff (before : Device) : BackoffFollows d (close before d) := by
  have s : d.settle.lu = d.lu := by
    unfold Device.settle
    rw [showAspect_eq]
    show (((d.settlePhases 8).lampsDone.beginReadIfDue.onClc Clc.serve).watchPower).lu = _
    unfold Device.watchPower
    rw [followMonitor_eq, releasePull_eq, beginReadIfDue_eq, lampsDone_eq]
    exact settlePhases_lu d 8
  have b : (before.markChanges d.settle).lu.backoff = d.lu.backoff := by
    have k : ∀ e : Device, (before.markChanges e).lu.backoff = e.lu.backoff := by intro e; rw [markChanges_eq]
    rw [k, s]
  have c := (FollowedCore.close before d).clock
  have q : (close before d).lu.quiet = d.lu.quiet := by rw [(FollowedCore.close before d).lu]
  unfold BackoffFollows
  unfold close at c q ⊢
  generalize before.markChanges d.settle = m at b c q ⊢
  unfold Device.seekLine at c q ⊢
  have rq : m.lu.quiet = d.lu.quiet := by
    split at q <;> exact q
  by_cases h : (m.readyToSend && m.lu.quiet && m.lu.backoff.isNone) = true
  · rw [if_pos h] at c ⊢
    simp only [Bool.and_eq_true, Option.isNone_iff_eq_none] at h
    have r : (m.onLu fun lu => { lu with backoff := m.timer (m.slot * Config.backoffSlot) }).readyToSend = true := h.1.1
    rw [if_pos ⟨r, rq ▸ h.1.2, b ▸ h.2⟩]
    show some (m.clock + m.slot * 64) = some (d.clock + m.slot * 64)
    rw [show m.clock = d.clock from c]
  · rw [if_neg h, b, if_neg]
    rintro ⟨k1, k2, k3⟩
    apply h
    rw [k1, rq, k2, b, k3]
    rfl

/-! ### The following-up as a whole -/

/-- What the following-up of an event makes of the device it has left. -/
theorem followed_close (before after : Device) : Followed after (close before after) := by
  refine ⟨FollowedCore.close before after, close_bay after before, close_heater after before,
    close_lamps after before, close_backoff after before, ?_⟩
  split
  · next h => exact JustCoupling.close before h
  · next h => exact ⟨Stays.close before after (by simpa using h), close_link after before (by simpa using h)⟩

/-! ### Evaluated stations -/

/-- The blocks look at no corroboration flag (R79 to R81). -/
theorem evalBlocks_corroborate : d.corroborate.evalBlocks = d.evalBlocks := by
  have k : ∀ c : Channel, (c.corroborated d.ftu).num = c.num ∧ (c.corroborated d.ftu).status = c.status
      ∧ (c.corroborated d.ftu).masked = c.masked := by
    intro c
    unfold Channel.corroborated
    repeat' split
    all_goals exact ⟨rfl, rfl, rfl⟩
  have l1 : d.corroborate.lampsPend = d.lampsPend := by
    unfold Device.lampsPend Device.corroborate
    simp only [Device.onLtu_ltu, List.any_map, Function.comp_def, Channel.fitted, Device.mandatory, Channel.ofCoach, k]
    rfl
  have l2 : d.corroborate.lampsFail = d.lampsFail := by
    unfold Device.lampsFail Device.corroborate
    simp only [Device.onLtu_ltu, List.any_map, Function.comp_def, Channel.fitted, Device.mandatory, Channel.ofCoach, k]
    rfl
  have l3 : d.corroborate.ltu.signalFails = d.ltu.signalFails := by
    unfold Ltu.signalFails Device.corroborate
    simp only [Device.onLtu_ltu, List.any_map, Function.comp_def, k]
  unfold Device.evalBlocks
  rw [l1, l2, l3]
  rfl

/-- In a station that is evaluated the evaluations change the corroboration alone. -/
theorem refresh_of_evaluated (e : d.evaluated) : d.refresh = d.corroborate := by
  obtain ⟨e1, e2, e3⟩ := e
  have m : d.takeMatch = d := by unfold Device.takeMatch; rw [← e1]; rfl
  have l : d.takeLockout = d := by unfold Device.takeLockout; rw [← e2]; rfl
  unfold Device.refresh
  rw [m, l]
  unfold Device.takeBlocks
  rw [evalBlocks_corroborate, ← e3]
  rfl

/-- Where no phase rule is left to apply, none applies (R27, R120, R125, R126, R131, R132). -/
theorem nextPhase_none_of_settled (s : d.phaseSettled) : d.nextPhase = none := by
  unfold Device.phaseSettled at s
  unfold Device.nextPhase Device.coupleNow
  have te : d.tooEarly = true ↔ ¬ ∀ plan, d.cu.plan = some plan → plan.minutes ≤ d.conf.releaseLead := by
    unfold Device.tooEarly
    cases d.cu.plan <;> simp
  have el : d.eligible = true ↔ (d.cu.blocks.departurePath = false ∧ d.cu.spacing = none ∧ d.cu.retryHold = false
        ∧ ∃ plan, d.cu.plan = some plan ∧ plan.minutes ≤ d.conf.releaseLead) := by
    unfold Device.eligible Device.tooEarly
    cases d.cu.plan <;> simp [Option.isNone_iff_eq_none]
    tauto
  rcases p : d.cu.phase with _ | _ | _ | _ | _ | _ | _ | _ <;> rw [p] at s <;> dsimp only at s ⊢
  · simp only [beq_self_eq_true, Bool.true_or, Bool.true_and]
    rw [if_neg (by simpa using s)]
  · rw [s]; rfl
  · rw [if_neg s]
  · rw [s.2, s.1]; rfl
  · have n : d.cu.blocks.noPlan = false := by
      have := s.1
      unfold Blocks.preparation at this
      simp only [Bool.or_eq_false_iff] at this
      tauto
    rw [n, s.1, if_neg (c := d.eligible = true) (fun k => s.2 (el.1 k))]
    rfl
  · have n : d.cu.blocks.noPlan = false := by
      have := s.1
      unfold Blocks.revoking at this
      simp only [Bool.or_eq_false_iff] at this
      tauto
    have t : d.tooEarly = false := by
      cases k : d.tooEarly with
      | false => rfl
      | true => exact absurd s.2 (te.1 k)
    rw [n, s.1, t]; rfl
  · have n : d.cu.blocks.noPlan = false := by
      have := s.1
      unfold Blocks.revoking at this
      simp only [Bool.or_eq_false_iff] at this
      tauto
    have t : d.tooEarly = false := by
      cases k : d.tooEarly with
      | false => rfl
      | true => exact absurd s.2 (te.1 k)
    rw [n, s.1, t]; rfl
  · simp only [beq_self_eq_true, Bool.or_true, Bool.true_and]
    rw [if_neg (by simpa using s)]

/-- In a station that is evaluated and settled no phase rule applies after the evaluations, and coupling does not
begin. -/
theorem nextPhase_none_of (e : d.evaluated) (s : d.phaseSettled) :
    d.refresh.nextPhase = none ∧ d.coupleNow = false := by
  have n := nextPhase_none_of_settled d s
  have r : d.refresh.nextPhase = none := by
    rw [refresh_of_evaluated d e]
    exact n
  refine ⟨r, ?_⟩
  cases c : d.coupleNow with
  | false => rfl
  | true =>
    have k := c
    unfold Device.coupleNow at k
    simp only [Bool.and_eq_true, Bool.or_eq_true, beq_iff_eq] at k
    unfold Device.nextPhase at n
    rcases k.1.1 with p | p <;> rw [p] at n <;> simp [c] at n

end Sys2Proof.Machine
end

