-- ==== Sys2Proof/Laws/Frames.lean ====
section
/-! SUPPORT. What the reception of a frame comes to: a valid frame of another node, a dispatch frame obeyed, the own
number; and how a completed command is shown from what its meaning hands to the following-up. -/

namespace Sys2Proof.Machine

/-- A command whose meaning closes on `after` completes with it. -/
theorem completes_of_close {c : Instr} {s : State} {before after : Device}
    (h : exec c s = .next { s with dev := close before after }) : Completes c s after :=
  ⟨_, h, rfl, followed_close _ _⟩

/-- What a valid frame of another node leaves before it is used. -/
theorem heard_eq (d : Device) : (d.leaveFrame .idle).lineActivity = d.heard := by
  rcases d with ⟨clock, pins, sc, identity, clc, ftu, ltu, hp, hcu, cu, lu⟩
  simp only [Device.leaveFrame, Device.lineBusy, Device.onLu, Device.lineActivity, Device.onSc, Device.heard]
  by_cases g : sc.mode = .isolated ∧ sc.rejoin = none
  · simp [g, Device.onHcu, Device.timer, Config.silenceTime, Config.lineQuiet, Config.second, Config.millisecond,
      Config.bitTime]
  · simp [g, Device.timer, Config.silenceTime, Config.lineQuiet, Config.second, Config.millisecond, Config.bitTime]

@[simp] theorem heard_conf (d : Device) : d.heard.conf = d.conf := rfl

/-- A valid frame of another node, once it is received, is line activity and goes to its use. -/
theorem takeFrame_heard {d : Device} {sender dest : Byte} (h1 : 1 ≤ sender.toNat) (h2 : sender.toNat ≤ 63)
    (h3 : dest.toNat ≤ 63) (h4 : sender.toNat ≠ d.conf.station) (use : Device → Device) :
    d.takeFrame sender dest true use = close d (use d.heard) := by
  have k : (addressesOk sender dest && true) = true := by simp [addressesOk, h1, h2, h3]
  simp only [Device.takeFrame, k, Bool.not_true, heard_eq, h4]
  simp

/-- A valid frame of another node is line activity and goes to its use. -/
theorem receiveFrame_heard {d : Device} {sender dest : Byte} (h : d.hearsFrom sender dest) (use : Device → Device) :
    d.receiveFrame sender dest true use = close d (use d.heard) := by
  obtain ⟨h1, h2, h3, h4, h5, h6, h7⟩ := h
  have r : d.receives = true := by simp [Device.receives, h1, h2, h3]
  rw [Device.receiveFrame, if_pos (by simp [r]), takeFrame_heard h4 h5 h6 h7]

/-- A dispatch number in use authorises. -/
theorem authorises_of {d : Device} {sender : Byte} (h : 1 ≤ sender.toNat)
    (k : sender.toNat = d.conf.dispatch1 ∨ sender.toNat = d.conf.dispatch2) :
    d.conf.authorises sender.toNat = true := by
  simp only [StationConfig.authorises, Bool.or_eq_true, Bool.and_eq_true, bne_iff_ne, beq_iff_eq]
  rcases k with k | k
  · left; omega
  · right; omega

/-- A dispatch frame to the own number from a dispatch number in use passes the checks (R164). -/
theorem takeDispatch_authorised {d : Device} {sender dest : Byte} (h1 : 1 ≤ sender.toNat)
    (h2 : dest.toNat = d.conf.station) (h3 : 1 ≤ dest.toNat)
    (h4 : sender.toNat = d.conf.dispatch1 ∨ sender.toNat = d.conf.dispatch2) (broadcast : Bool)
    (accept : Device → Device) :
    d.heard.takeDispatch sender.toNat dest.toNat broadcast accept = accept d.heard := by
  have k := authorises_of h1 h4
  have z : ¬ d.conf.station = 0 := by omega
  simp [Device.takeDispatch, h2, k, z]

/-- A dispatch frame to the own number from a dispatch number in use is accepted. -/
theorem dispatchFrame_obeys {d : Device} {sender dest : Byte} (h : d.obeys sender dest) (broadcast : Bool)
    (accept : Device → Device) :
    d.dispatchFrame sender dest true broadcast accept = close d (accept d.heard) := by
  obtain ⟨h1, h2, h3, h4⟩ := h
  rw [Device.dispatchFrame, receiveFrame_heard h1, takeDispatch_authorised h1.2.2.2.1 h2 h3 h4]

/-- A QUERY to the own number from a dispatch number in use is accepted, beside an own LIST
or a number conflict as well (R168). -/
theorem queryFrame_obeys {d : Device} {sender dest : Byte} (h : d.obeysQuery sender dest) (accept : Device → Device) :
    d.queryFrame sender dest accept = close d (accept d.heard) := by
  obtain ⟨h1, h2, h3, h4, h5, h6, h7, h8⟩ := h
  have r : (d.receives || d.queryBesideEvent) = true := by
    rcases h1 with h1 | h1 <;> simp [h1]
  rw [Device.queryFrame, if_pos r, takeFrame_heard h2 h3 h4 h5, takeDispatch_authorised h2 h6 h7 h8]

/-- A station that hears its own number in a valid frame, beside a QUERY as well (R168), reports the number conflict. -/
theorem receiveFrame_ownNumber {d : Device} {sender dest : Byte} (h1 : d.receives = true ∨ d.atLineEvent = true)
    (h4 : 1 ≤ sender.toNat) (h5 : sender.toNat ≤ 63) (h6 : dest.toNat ≤ 63) (h7 : sender.toNat = d.conf.station)
    (use : Device → Device) :
    d.receiveFrame sender dest true use = close d (d.leaveFrame .idle).numberConflict := by
  have k : (addressesOk sender dest && true) = true := by simp [addressesOk, h4, h5, h6]
  have r : (d.receives || d.conflictBesideQuery sender dest true) = true := by
    rcases h1 with h1 | h1 <;> simp_all [Device.conflictBesideQuery]
  rw [Device.receiveFrame, if_pos r]
  simp only [Device.takeFrame, k, Bool.not_true, h7]
  simp

end Sys2Proof.Machine
end

