-- ==== Sys2Proof/WellFormed.lean ====
section
/-! DEFINITION. Which commands a station can meet: the ranges that the frame formats, the analogue circuits and the
configuration memory give the operands. A meaning does not rely on them: a frame outside them is discarded as R22 and
R142 say. -/

namespace Sys2Proof

/-- FROM is 1..63 and TO is 0..63 (R140, R142). -/
def addressOk (sender dest : Byte) : Bool :=
  decide (1 ≤ sender.toNat) && decide (sender.toNat ≤ 63) && decide (dest.toNat ≤ 63)

/-- The CANCEL flag of a PLAN payload: bit 0 of byte 5 (Table 64). -/
def planCancelBit (payload : List Byte) : Bool :=
  (payload.getD 5 0#8).getLsbD 0

/-- A command whose operands lie in the ranges that the spec gives them. -/
def Instr.wellFormed : Instr → Bool
  | .configurationRead (some image) => decide (image.length = 32)
  | .identity payload => decide (payload.length = 10)
  | .profile payload => decide (payload.length = 16)
  | .status payload => decide (payload.length = 3)
  | .opened payload => decide (payload.length = 1)
  | .records payload => decide (payload.length = 1 ∨ payload.length = 9 ∨ payload.length = 17)
  | .measurementEnd millivolts milliamps _ => decide (millivolts ≤ 30000) && decide (milliamps ≤ 25)
  | .noticeReceived sender dest payload => addressOk sender dest && decide (payload.length = 16)
  | .plan sender dest payload => addressOk sender dest && decide (payload.length = 8) && !planCancelBit payload
  | .planCancel sender dest payload => addressOk sender dest && decide (payload.length = 8) && planCancelBit payload
  | .hold sender dest payload => addressOk sender dest && decide (payload.length = 2)
  | .acknowledge sender dest payload => addressOk sender dest && decide (payload.length = 1)
  | .queryLamps sender dest _ => addressOk sender dest
  | .queryFaults sender dest _ => addressOk sender dest
  | .queryHeat sender dest _ => addressOk sender dest
  | .queryLine sender dest _ => addressOk sender dest
  | .queryUnknownSubject sender dest subject _ =>
    addressOk sender dest && (decide (subject.toNat = 0) || decide (4 < subject.toNat))
  | .listReceived sender dest => addressOk sender dest
  | .peerEntryExpiry station => decide (1 ≤ station ∧ station ≤ 63)
  | .configurationRead none | .powerOn | .resetAssert | .resetRelease | .shedSelfTestEnd _ | .listenTimerExpiry
  | .silenceTimeout | .rejoinPeriodEnd | .conflictQuietExpiry | .minuteTick | .claimTick _ | .plugPinChange _
  | .plugPresent | .unplug | .requestSent | .attemptStart | .replyTimeout | .replyGapTimeout | .replyFrameDiscarded _
  | .identificationRetryExpiry | .pollDue | .tcHeld | .tcStale | .busy | .busyRetryExpiry | .faultRefreshExpiry
  | .faultPendingAgeExpiry | .retestTimerExpiry | .fullPassTimerExpiry | .fullPassAgeExpiry | .signalPassTimer
  | .windowSettlingExpiry | .shedPinChange _ | .shedAsserted | .shedReleased | .holdOffExpiry
  | .measuredPowerChange _ | .overcurrentTimingExpiry | .stuckTimingExpiry | .shedPullExpiry | .presenceChange _
  | .presenceTimerExpiry | .intentWindowExpiry | .spacingTimerExpiry | .aspectFlash | .lineQuiet | .backoffExpiry
  | .noticeHoldbackExpiry | .collision | .noticeCompletion | .listCompletion | .lineGapTimeout | .frameFormatError _
  | .lineStartBit | .replyFrameBegin => true

end Sys2Proof
end

