-- ==== Sys2Proof/Tests/Slice0.lean ====
section
/-! SUPPORT. Tests: one ill-formed command for each check, values the manual works out, small single steps, and for every
statement with hypotheses a state that meets them, clause by clause. -/

namespace Sys2Proof.Tests

open Sys2Proof Sys2Proof.Machine

/-! ### Well-formedness refuses (00_scope.md, Tables 51, 56, 63, 64, 67) -/

theorem test_wf_image : (Instr.configurationRead (some [])).wellFormed = false := by decide
theorem test_wf_identity : (Instr.identity []).wellFormed = false := by decide
theorem test_wf_profile : (Instr.profile []).wellFormed = false := by decide
theorem test_wf_status : (Instr.status [1#8]).wellFormed = false := by decide
theorem test_wf_opened : (Instr.opened []).wellFormed = false := by decide
theorem test_wf_records : (Instr.records [0#8, 0#8]).wellFormed = false := by decide
theorem test_wf_measurement_voltage : (Instr.measurementEnd 30001 0 0).wellFormed = false := by decide
theorem test_wf_measurement_current : (Instr.measurementEnd 0 26 0).wellFormed = false := by decide
theorem test_wf_notice : (Instr.noticeReceived 1#8 0#8 []).wellFormed = false := by decide
theorem test_wf_notice_from : (Instr.noticeReceived 0#8 0#8 (List.replicate 16 0#8)).wellFormed = false := by decide
theorem test_wf_plan : (Instr.plan 2#8 1#8 (List.replicate 7 0#8)).wellFormed = false := by decide
theorem test_wf_plan_cancel_bit :
    (Instr.plan 2#8 1#8 [0#8, 0#8, 0#8, 0#8, 0#8, 1#8, 0#8, 0#8]).wellFormed = false := by decide
theorem test_wf_cancel_bit : (Instr.planCancel 2#8 1#8 (List.replicate 8 0#8)).wellFormed = false := by decide
theorem test_wf_hold : (Instr.hold 2#8 64#8 [0#8, 0#8]).wellFormed = false := by decide
theorem test_wf_acknowledge : (Instr.acknowledge 2#8 1#8 []).wellFormed = false := by decide
theorem test_wf_queryLamps : (Instr.queryLamps 64#8 1#8 0#8).wellFormed = false := by decide
theorem test_wf_queryFaults : (Instr.queryFaults 0#8 1#8 0#8).wellFormed = false := by decide
theorem test_wf_queryHeat : (Instr.queryHeat 0#8 1#8 0#8).wellFormed = false := by decide
theorem test_wf_queryLine : (Instr.queryLine 0#8 1#8 0#8).wellFormed = false := by decide
theorem test_wf_unknown_subject : (Instr.queryUnknownSubject 2#8 1#8 4#8 0#8).wellFormed = false := by decide
theorem test_wf_list : (Instr.listReceived 1#8 64#8).wellFormed = false := by decide
theorem test_wf_peer : (Instr.peerEntryExpiry 64).wellFormed = false := by decide

/-! ### Values the manual works out -/

/-- No word spells a command: the rows of the table give no bits. -/
theorem test_decode_none : decodeTableWord 16 0x1234 = none := by decide

set_option maxRecDepth 20000 in
/-- The request POLL on the Coach Link (Chapter 11). -/
theorem test_poll_bytes : Request.poll.bytes = [0x3C#8, 0x03#8, 0x00#8, 0xAC#8] := by decide

/-- Table 30: n = 2 with Vf 2.0 V is SHORT below 1,000 mV, PARTIAL below 3,000 mV. -/
theorem test_judgement_table30 :
    judgement true 20 2 999 20 24000 = .short ∧ judgement true 20 2 1000 20 24000 = .partly
      ∧ judgement true 20 2 2999 20 24000 = .partly ∧ judgement true 20 2 3000 20 24000 = .pass := by decide

/-- Table 30: n = 1 has no PARTIAL; the supply and current tests come first (R66). -/
theorem test_judgement_order :
    judgement true 30 1 1500 20 24000 = .pass ∧ judgement true 30 1 1500 4 24000 = .opened
      ∧ judgement true 30 1 1500 4 17999 = .unjudged ∧ judgement false 30 1 1500 4 17999 = .opened := by decide

/-- Table 35, tick a. -/
theorem test_heat_table35 :
    warmingEnergy 800 66 = 26400 ∧ holdingPower 150 36 (-50) = 6450 ∧ warmingPower 26400 90 = 4889
      ∧ rawClaim 11339 = 46 ∧ reachTime 26400 6450 48 = 80 ∧ slackOf 90 26400 6450 48 = 10 := by decide

/-- Table 36, case 1: M = 0. -/
theorem test_heat_table36 :
    warmingPower 26400 0 = 440000 ∧ rawClaim 446450 = 1786 ∧ slackOf 0 26400 6450 48 = -80 := by decide

/-- Table 37. -/
theorem test_heat_table37 :
    warmingEnergy 101 3 = 152 ∧ holdingPower 21 1 0 = 11 ∧ warmingPower 152 7 = 362 ∧ rawClaim 373 = 2 := by decide

/-- Table 40. -/
theorem test_window_table40 :
    stageWithin 48 4 2000 4 = 0 ∧ stageWithin 16 4 2000 4 = 2 ∧ stageWithin 160 7 10000 7 = 1
      ∧ stageWithin 24 6 2000 6 = 2 := by decide

/-- 8.7: FROM of station 21 is 0x15; a byte is a start bit 0, its data bits with the least significant first, a stop bit 1
(R139). -/
theorem test_line_bits :
    byteBits 0x15#8 = [false, true, false, true, false, true, false, false, false, true]
      ∧ ((lineBits [0x55#8, 0x01#8, 0x15#8]).drop 20).take 6 = [false, true, false, true, false, true] := by decide

/-- R52: a module above 63, a class code 9, a severity 7, a state code 2; the hint goes with the class. -/
theorem test_record_clamped :
    recordAt ([64, 9, 1, 2, 7, 2, 5, 3].map byteOf) 0 = ⟨63, .other, 513, 3, true, 5, none⟩
      ∧ (recordAt ([64, 4, 1, 2, 7, 0, 5, 16].map byteOf) 0).hint = some 16 := by decide

/-! ### Small states -/

/-- A configuration: station 21, lane 3, position 2, dispatch number 2. -/
def conf : StationConfig :=
  ⟨21, 3, 2, 2, 0, 100, 33, 8, 45, 5, 12#7, true, true, true, 6, 22, false, true⟩

/-- Station 7's coach of Chapter 5. -/
def coach : CoachIdentity := ⟨4417, 800, 150, 48, 4, 28, List.replicate 16 ⟨true, true, 4⟩, false⟩

/-- Its plan at 90 minutes, target 18 °C. -/
def plan90 : Plan := ⟨4417, 90, 36, false, false, 0#16, false⟩

/-- A station in RUN, the bay VACANT. -/
def bay : Device :=
  (Device.resetBlocks 1000 Pins.reset0 .over none none).onSc fun (sc : Sc) => { sc with mode := .run, config := some conf }

/-- The same with the coach identified, its plan matched, in the phase given. -/
def withCoach (phase : Phase) : Device :=
  { bay with
    identity := some coach,
    clc := { bay.clc with plug := true, linkUp := true, tcState := .current, lastStatus := some ⟨-30, 900⟩ },
    cu := { bay.cu with phase := phase, plan := some plan90, matchState := .matched } }

/-- A device as a state with an empty queue. -/
def st (d : Device) : State := ⟨[], d⟩

/-- The bay in PREPARING at stage 2 under a grant and an announced claim of 48, its blocks evaluated. -/
def prepared : Device :=
  let d := { (withCoach .preparing) with
    ltu := { Ltu.reset with
      channels := Ltu.offChannels.map fun (c : Channel) => { c with status := .initial } }
    hp := { Hp.reset with q := 48 }
    hcu := { Hcu.reset none with stage := 2, target := 2, grant := 48, announced := 48, claimTimer := some 5000 } }
  { d with
    pins := { d.pins with plug := true, power := 6000 },
    cu := { d.cu with blocks := d.evalBlocks, aspect := ⟨.red, false⟩, lit := true } }

/-- The bay in CLEARING, in its intent window, nothing standing against it. -/
def clearing : Device :=
  let d := { (withCoach .clearing) with
    ltu := { Ltu.reset with ageTimer := some 90000 }
    ftu := { Ftu.reset with ageTimer := some 90000, lastEnding := .complete }
    hp := { Hp.reset with reached := true } }
  let e := d.onCu fun cu =>
    { cu with
      plan := some { plan90 with minutes := 5, laneWaiver := true }, intent := .window, intentTimer := some 7000, key := some ⟨5, 21⟩ }
  e.onCu fun cu => { cu with blocks := e.evalBlocks, aspect := ⟨.amber, false⟩, lit := true }

/-- An attempt of an exchange. -/
def trying (request : Request) (attempt : Nat) (step : AttemptStep) (timer : Timer) : State :=
  st ((withCoach .coupled).onClc fun clc => { clc with exchange := some ⟨request, attempt, step, timer⟩ })

/-- A read sequence whose reply is being received. -/
def reading (request : Request) (read : CurrentRead) (toggle : Bool) (busy : Nat) : State :=
  st ((trying request 1 .receiving none).dev.onFtu fun ftu =>
    { ftu with read := some read, toggle := toggle, busyCount := busy })

/-- A station that is assembling a frame of another node. -/
def hearing (d : Device) : State := st (d.onLu fun lu => { lu with receiver := .assembling })

/-- A station that drives a frame. -/
def driving (content : FlightContent) (failed : Nat) (d : Device) : State :=
  st (d.onLu fun lu => { lu with sending := true, flight := some ⟨content, [], failed⟩ })

/-- A 32-byte image that passes the checks of R155. -/
def image : List Byte :=
  [21, 3, 2, 2, 0, 100, 0, 33, 0, 8, 45, 5, 12, 7, 6, 22, 3].map byteOf ++ List.replicate 14 0#8 ++ [0x94#8]

/-! ### Small steps -/

/-- R134: an unplug in READY leads to VACANT with PULLOUT. -/
theorem test_unplug_pullout :
    ∃ t, exec .unplug (st (((withCoach .ready).onClc fun clc => { clc with plugFilter := some 1200 }))) = .next t
      ∧ t.dev.cu.phase = .vacant ∧ t.dev.sc.alarms.pullout = true :=
  ⟨_, rfl, by decide, by decide⟩

/-- R108: the shed sense takes the stage to 0 at once. -/
theorem test_shed_stage :
    ∃ t, exec .shedAsserted
        (st (((withCoach .preparing).onHcu fun hcu => { hcu with stage := 2, shedFilter := some 1200 }).onPins
          fun pins => { pins with shedHigh := false })) = .next t
      ∧ t.dev.hcu.stage = 0 ∧ t.dev.hcu.shedFlag = true :=
  ⟨_, rfl, by decide, by decide⟩

/-- R16: an ACKNOWLEDGE clears PULLOUT and keeps LINK_LOST. -/
theorem test_acknowledge :
    ∃ t, exec (.acknowledge 2#8 21#8 [1#8])
        (hearing (bay.onAlarms fun a => { a with pullout := true, linkLost := true })) = .next t
      ∧ t.dev.sc.alarms.pullout = false ∧ t.dev.sc.alarms.linkLost = true :=
  ⟨_, rfl, by decide, by decide⟩

/-- R164: a PLAN from a node without a dispatch number is counted and stores nothing. -/
theorem test_unauthorised :
    ∃ t, exec (.plan 3#8 21#8 (List.replicate 8 0#8)) (hearing bay) = .next t
      ∧ t.dev.cu.plan = none ∧ t.dev.lu.stats.unauthorised = 1 :=
  ⟨_, rfl, by decide, by decide⟩

/-- R142: a framing error in the CRC byte leaves the receiver IDLE, one before it SKIPPING. -/
theorem test_framing_error :
    (∃ t, exec (.frameFormatError (.framing true)) (hearing bay) = .next t ∧ t.dev.lu.receiver = .idle)
      ∧ ∃ t, exec (.frameFormatError (.framing false)) (hearing bay) = .next t ∧ t.dev.lu.receiver = .skipping :=
  ⟨⟨_, rfl, by decide⟩, _, rfl, by decide⟩

/-- R78: a stop that finds a measurement begun at this very moment ends the pass without it. -/
theorem test_stop_at_the_end_of_a_measurement :
    (prepared.onLtu fun ltu =>
        { ltu with
          stop := true, measuring := some 2, measureTimer := some 41000, pass := some ⟨.full, [1, 2], [2]⟩ }).takeStop.ltu.pass
      = none := by decide

/-- R23: a LEAD byte after a failed attempt begins a late frame, and the next attempt waits till that has ended. -/
theorem test_late_reply :
    (∃ t, exec .replyFrameBegin (trying .poll 1 .waitQuiet (some 1042)) = .next t
        ∧ t.dev.clc.exchange = some ⟨.poll, 1, .lateFrame, none⟩)
      ∧ ∃ t, exec (.status [0#8, 0#8, 0#8]) (trying .poll 1 .lateFrame none) = .next t
        ∧ t.dev.clc.exchange = some ⟨.poll, 1, .waitQuiet, some 2042⟩ ∧ t.dev.clc.tcState = .current
        ∧ t.dev.clc.lastStatus = some ⟨-30, 900⟩ :=
  ⟨⟨_, rfl, by decide⟩, _, rfl, by decide⟩

/-- R168: an own-number frame at the moment at which a QUERY was accepted is received, one a microsecond later is not. -/
theorem test_conflict_beside_query :
    (∃ t, exec (.listReceived 21#8 0#8) (st (bay.onLu fun lu => { lu with lineEvent := some 1000 })) = .next t
        ∧ t.dev.sc.mode = .conflict)
      ∧ ∃ t, exec (.listReceived 21#8 0#8) (st (bay.onLu fun lu => { lu with lineEvent := some 999 })) = .next t
        ∧ t.dev.sc.mode = .run :=
  ⟨⟨_, rfl, by decide⟩, _, rfl, by decide⟩

/-- The bay of `prepared` at the last measurement of its signal pass, a full pass pending, channel 3 failed twice. -/
def passEnding : Device :=
  let d := prepared.onLtu fun ltu =>
    { ltu with
      measuring := some 17, measureTimer := some 1000, pass := some ⟨.signal, [17], [17]⟩, pendingFull := true,
      retestTimer := some 1000,
      channels := ltu.channels.map fun c => if c.num = 3 then { c with status := .opened, retries := 2 } else c }
  d.onCu fun cu => { cu with blocks := d.evalBlocks }

/-- R70, R83: the retest that falls due as a pass ends begins at that moment in both orders, the full pass waits, and a
count that the full pass has taken back to 0 stands as the retest finds it in the other order. -/
theorem test_retest_beside_pass_end :
    (∃ t u, exec (.measurementEnd 14000 20 24000) (st passEnding) = .next t ∧ exec .retestTimerExpiry t = .next u
        ∧ u.dev.ltu.pass = some ⟨.retest, [3], [3]⟩ ∧ u.dev.ltu.pendingFull = true
        ∧ (u.dev.ltu.channels.map Channel.retries).getD 2 0 = 2)
      ∧ ∃ t u, exec .retestTimerExpiry (st passEnding) = .next t
        ∧ exec (.measurementEnd 14000 20 24000) t = .next u
        ∧ u.dev.ltu.pass = some ⟨.retest, [3], [3]⟩ ∧ u.dev.ltu.pendingFull = true
        ∧ (u.dev.ltu.channels.map Channel.retries).getD 2 0 = 2 :=
  ⟨⟨_, _, rfl, rfl, by decide, by decide, by decide⟩, _, _, rfl, rfl, by decide, by decide, by decide⟩

/-- R102: a window request works the target out anew, after a shed that took it to 0 (Table 40: window stage 2). -/
theorem test_window_request_target :
    ∃ t, exec .fullPassTimerExpiry
        (st { prepared with
          identity := some { coach with rating := 16 },
          hcu := { prepared.hcu with stage := 0, target := 0 },
          ltu := { prepared.ltu with fullTimer := some 1000 } }) = .next t
      ∧ t.dev.hcu.window = .effective ∧ t.dev.hcu.target = 2 ∧ t.dev.hcu.stage = 0 :=
  ⟨_, rfl, by decide, by decide, by decide⟩

/-- R73, R159: the signal pass falls due at the entry to LISTEN and begins in a free unit. -/
theorem test_signal_pass_at_listen :
    ∃ t, exec .conflictQuietExpiry
        (st (prepared.onSc fun sc => { sc with mode := .conflict, conflictTimer := some 1000 })) = .next t
      ∧ t.dev.ltu.pass = some ⟨.signal, [17, 18, 19], [17, 18, 19]⟩ :=
  ⟨_, rfl, by decide⟩

/-! ### States that meet the hypotheses of the statements -/

theorem witness_StepRunsFrontCommand :
    (⟨[.pollDue, .busy], bay⟩ : State).pending = .pollDue :: [.busy] := rfl

theorem witness_EveryStepAnswersNext : (st bay).pending = [] := rfl

theorem witness_ResetCommandsReturnEveryBlock :
    (st bay).dev.pins.reset = true
      ∧ (st (bay.onPins fun pins => { pins with reset := false, plug := true })).dev.pins.reset = false := by decide

set_option maxRecDepth 20000 in
theorem witness_ConfigurationReadAcceptsOrHalts :
    State.reset.dev.sc.mode = .start ∧ State.reset.dev.sc.startStep = .reading
      ∧ image.length = 32 ∧ crc8 (image.take 31) = image.getD 31 0#8 ∧ byteAt image 0 ≠ 0 ∧ byteAt image 1 ≠ 0 := by
  decide

set_option maxRecDepth 20000 in
theorem witness_ConfigurationReadAcceptsOrHalts_halts :
    (0x00#8 :: image.drop 1).length = 32 ∧ byteAt (0x00#8 :: image.drop 1) 0 = 0
      ∧ crc8 ((image.set 2 1#8).take 31) ≠ (image.set 2 1#8).getD 31 0#8 ∧ (image.take 31).length ≠ 32 := by decide

/-- The clamps at both ends: an erased image, one of zeros, and replies of zeros. -/
theorem witness_ItemsAndFieldsAreClamped :
    (readConfig (List.replicate 32 0xFF#8)).windowAllowance = 8
      ∧ (readConfig (List.replicate 32 0xFF#8)).spacing = 45
      ∧ (readConfig (List.replicate 32 0xFF#8)).releaseLead = 5
      ∧ (readConfig (List.replicate 32 0xFF#8)).position = 4 ∧ (readConfig []).position = 1
      ∧ (readConfig []).signalLeds = 1 ∧ (readConfig []).signalVf = 20
      ∧ (readIdentity [] []).clamped = true ∧ (readIdentity [] []).capacity = 100
      ∧ (byteAt [5#8] 0 ≤ 5 ∧ 6 ≤ byteAt [6#8] 0) ∧ (List.replicate 9 0#8).length = 9 := by decide

theorem witness_EntryToListenStartsTheTimers :
    (st (Device.resetBlocks 7 Pins.reset0 .selfTest none none |>.onSc fun sc =>
        { sc with selfTest := some 20000, config := some conf })).dev.sc.selfTest = some 20000
      ∧ (st (bay.onSc fun sc => { sc with mode := .conflict, conflictTimer := some 60 })).dev.sc.conflictTimer
          = some 60 := by decide

/-- A bay with a timer of its Station Control set. -/
def timed (mode : Mode) (f : Sc → Sc) : State := st (bay.onSc fun sc => f { sc with mode := mode })

theorem witness_ModeTimersAndMinuteTick :
    (timed .listen fun sc => { sc with listenTimer := some 9 }).dev.sc.listenTimer = some 9
      ∧ (timed .run fun sc => { sc with silence := some 9 }).dev.sc.silence = some 9
      ∧ (timed .run id).dev.sc.mode = .run ∧ (timed .listen id).dev.sc.mode ≠ .run
      ∧ ((timed .isolated fun sc => { sc with rejoin := some 1 }).dev.sc.rejoin = some 1
        ∧ (st (prepared.onSc fun sc => { sc with mode := .isolated, rejoin := some 1 })).dev.hcu.claimTimer
            = some 5000)
      ∧ (timed .run fun sc => { sc with minuteTimer := some 9 }).dev.sc.minuteTimer = some 9 := by decide

/-- The probe at both ends of its valid range, and next to them. -/
theorem witness_ClaimTickDoesItsWork :
    (st prepared).dev.hcu.claimTimer = some 5000 ∧ (st prepared).dev.identity = some coach
      ∧ (st prepared).dev.cu.phase.withCoach = true ∧ (st prepared).dev.sc.mode.speaks = true
      ∧ ((-90 : Int) ≤ -90 ∧ (110 : Int) ≤ 110) ∧ ((-91 : Int) < -90 ∧ (110 : Int) < 111)
      ∧ (prepared.readProbe (-90)).hp.toInUse = -80 ∧ (prepared.readProbe 110).hp.toInUse = 100
      ∧ (prepared.readProbe 111).hp.toInUse = -60 ∧ (prepared.readProbe 111).sc.alarms.probeFault = true := by decide

/-- An evaluated and settled bay whose tick grants and prepares a raise; the window stays as it is. -/
theorem witness_ClaimTickDoesItsWork_settled :
    (st prepared).dev.evaluated ∧ (st prepared).dev.phaseSettled ∧ (st prepared).dev.sc.rejoin = none
      ∧ ∃ t, exec (.claimTick (-50)) (st prepared) = .next t ∧ t.dev.hcu.window = prepared.hcu.window
        ∧ t.dev.hcu.grant = 46 ∧ t.dev.hcu.raise = some 3 := by
  refine ⟨?_, ⟨by decide, by decide⟩, rfl, _, rfl, by decide, by decide, by decide⟩
  unfold Device.evaluated; decide

/-- The first tick at which the HP runs, HEAT INITIAL. -/
theorem witness_ClaimTickDoesItsWork_first :
    (let d := (prepared.onHp fun hp => { hp with firstRun := true }).onSc fun sc => { sc with heat := ⟨.initial, false⟩ };
      d.hpRuns = true ∧ d.hp.firstRun = true ∧ d.sc.heat.status ≠ .off ∧ d.evaluated ∧ d.phaseSettled
        ∧ d.sc.rejoin = none) := by
  refine ⟨by decide, by decide, by decide, ?_, ⟨by decide, by decide⟩, rfl⟩
  unfold Device.evaluated; decide

theorem witness_PinChangesStartTheFilters :
    (st bay).dev.pins.plug ≠ true ∧ (st bay).dev.pins.shedHigh ≠ false ∧ (st bay).dev.pins.vehicle ≠ true
      ∧ (st (withCoach .departing)).dev.pins.vehicle ≠ true ∧ (st (withCoach .departing)).dev.cu.phase = .departing := by
  decide

/-- A station whose plug filter counts towards the level given. -/
def plugging (seated : Bool) (d : Device) : State :=
  st ((d.onPins fun pins => { pins with plug := seated }).onClc fun clc =>
    { clc with plug := !seated, plugFilter := some 201000 })

theorem witness_PlugPresentBeginsCoupling :
    ∀ phase ∈ [Phase.vacant, Phase.departing],
      (plugging true (withCoach phase)).dev.clc.plugFilter = some 201000
      ∧ (plugging true (withCoach phase)).dev.clc.plug = false ∧ (plugging true (withCoach phase)).dev.pins.plug = true
      ∧ (plugging true (withCoach phase)).dev.sc.mode.heats = true
      ∧ (plugging true (withCoach phase)).dev.cu.phase = phase := by decide

theorem witness_UnplugMovesThePhase :
    ∀ phase ∈ [Phase.coupling, .coupled, .preparing, .ready, .clearing, .cleared, .departing],
      (plugging false (withCoach phase)).dev.clc.plugFilter = some 201000
      ∧ (plugging false (withCoach phase)).dev.clc.plug = true
      ∧ (plugging false (withCoach phase)).dev.pins.plug = false
      ∧ (plugging false (withCoach phase)).dev.cu.phase = phase := by decide

theorem witness_UnplugLeavesOfTheCoach :
    (plugging false clearing).dev.clc.plugFilter = some 201000 ∧ (plugging false clearing).dev.clc.plug = true
      ∧ (plugging false clearing).dev.pins.plug = false ∧ (plugging false clearing).dev.cu.phase = .clearing
      ∧ (plugging false (withCoach .cleared)).dev.cu.phase = .cleared := by decide

theorem witness_AttemptsFollowTheLink :
    (trying .identify 1 .sending none).dev.clc.exchange = some ⟨.identify, 1, .sending, none⟩
      ∧ (trying .poll 1 .window (some 9)).dev.clc.exchange = some ⟨.poll, 1, .window, some 9⟩
      ∧ (trying .poll 2 .waitQuiet (some 9)).dev.clc.exchange = some ⟨.poll, 2, .waitQuiet, some 9⟩
      ∧ (trying .poll 2 .lateFrame none).dev.clc.exchange = some ⟨.poll, 2, .lateFrame, none⟩
      ∧ (trying .poll 2 .window (some 9)).dev.clc.exchange = some ⟨.poll, 2, .window, some 9⟩
      ∧ (trying .poll 2 .receiving none).dev.clc.exchange = some ⟨.poll, 2, .receiving, none⟩ ∧ 2 < 3 := by decide

/-- A bay whose exchange stands as given, with kinds pending. -/
def waiting (request : Request) (step : AttemptStep) (timer : Timer) (id poll : Bool) (read : Option Request) : State :=
  st ((trying request 3 step timer).dev.onClc fun clc =>
    { clc with pendingId := id, pendingPoll := poll, pendingRead := read })

theorem witness_ThirdFailureEndsTheExchange :
    (waiting .identify .window (some 9) true false none).dev.clc.exchange = some ⟨.identify, 3, .window, some 9⟩
      ∧ (waiting .identify .window (some 9) true false none).dev.clc.pendingId = true
      ∧ (waiting (.fetch true) .receiving none false true none).dev.clc.exchange = some ⟨.fetch true, 3, .receiving, none⟩
      ∧ (waiting (.fetch true) .receiving none false true none).dev.clc.pendingPoll = true
      ∧ (waiting .poll .receiving none false false (some (.openRead 0 32))).dev.clc.pendingRead.isSome = true
      ∧ (waiting .poll .receiving none false false none).dev.clc.pendingRead = none
      ∧ ∀ request ∈ [Request.identify, .poll, .fetch true],
          (waiting request .receiving none false false none).dev.coupleNow = false := by decide

theorem witness_UnacceptedRepliesFailTheAttempt :
    (trying .poll 1 .receiving none).dev.clc.exchange = some ⟨.poll, 1, .receiving, none⟩
      ∧ Request.poll ≠ .identify ∧ Request.poll ≠ .getProfile
      ∧ (trying .identify 1 .receiving none).dev.clc.exchange = some ⟨.identify, 1, .receiving, none⟩
      ∧ Request.identify ≠ .poll ∧ ([] : List Byte).length ≠ 10
      ∧ (∀ start budget, Request.poll ≠ .openRead start budget) ∧ (∀ toggle, Request.poll ≠ .fetch toggle) :=
  ⟨rfl, by decide, by decide, rfl, by decide, by decide, by simp, by simp⟩

theorem witness_IdentificationAndPollGoOn :
    (trying .identify 1 .receiving none).dev.clc.exchange = some ⟨.identify, 1, .receiving, none⟩
      ∧ (List.replicate 10 1#8).length = 10 ∧ (trying .identify 1 .receiving none).dev.coupleNow = false
      ∧ (let s := st (bay.onClc fun clc => { clc with retryTimer := some 9, pollTimer := some 9 });
        s.dev.clc.retryTimer = some 9 ∧ s.dev.clc.pollTimer = some 9 ∧ s.dev.coupleNow = false
          ∧ s.dev.clc.exchange = none ∧ s.dev.clc.heldIdentity = none ∧ s.dev.clc.pendingId = false)
      ∧ (let s := (trying .poll 1 .sending none).dev.onClc fun clc => { clc with retryTimer := some 9, pollTimer := some 9 };
        s.clc.exchange = some ⟨.poll, 1, .sending, none⟩ ∧ s.clc.retryTimer = some 9 ∧ s.coupleNow = false)
      ∧ ({ bay.clc with pendingRead := some (.fetch true) }.pendingPoll = false
        ∧ { bay.clc with pendingRead := some (.fetch true) }.pendingRead = some (.fetch true)) := by decide

/-- A bay in COUPLING whose GET_PROFILE is being answered. -/
def profiling : State :=
  st ((bay.onCu fun cu => { cu with phase := .coupling }).onClc fun clc =>
    { clc with
      plug := true, exchange := some ⟨.getProfile, 1, .receiving, none⟩, heldIdentity := some (List.replicate 10 1#8) })

theorem witness_ProfileIdentifiesTheCoach :
    profiling.dev.clc.exchange = some ⟨.getProfile, 1, .receiving, none⟩
      ∧ profiling.dev.clc.heldIdentity = some (List.replicate 10 1#8) ∧ (List.replicate 16 0#8).length = 16
      ∧ profiling.dev.sc.lamp.status = .off ∧ profiling.dev.sc.fault.status = .off
      ∧ profiling.dev.cu.phase = .coupling ∧ profiling.dev.clc.pendingId = false := by decide

/-- The same with a plan for any coach and a signal lamp that has failed for good: the full pass clears its final flag. -/
theorem witness_ProfileIdentifiesTheCoach_final :
    let s := st ((profiling.dev.onCu fun cu => { cu with plan := some { plan90 with coach := 0 } }).onLtu fun ltu =>
      { ltu with
        channels := ltu.channels.map fun (c : Channel) =>
          if c.num = 17 then { c with status := .opened, retries := 6, isFinal := true } else c });
    s.dev.cu.plan = some { plan90 with coach := 0 } ∧ s.dev.ltu.pass = none ∧ s.dev.ltu.pendingRetest = false
      ∧ s.dev.ltu.pendingSignal = false ∧ s.dev.sc.lamp.status = .off
      ∧ { Channel.off 17 with status := .opened, retries := 6, isFinal := true } ∈ s.dev.ltu.channels
      ∧ (∀ c ∈ profiling.dev.ltu.channels, c.isFinal = false)
      ∧ ∃ t, exec (.profile (List.replicate 16 0#8)) s = .next t ∧ t.dev.sc.lamp = ⟨.dirty, true⟩ :=
  ⟨by decide, by decide, by decide, by decide, by decide, by decide, by decide, _, rfl, by decide⟩

/-- A bay whose POLL is being answered and that has seen the change count 2, a sequence running or not. -/
def polled (read : Option CurrentRead) : State :=
  st (((trying .poll 1 .receiving none).dev.onClc fun clc => { clc with changeCount := some 2 }).onFtu fun ftu =>
    { ftu with read := read })

/-- No sequence runs, or one does; CURRENT and HELD. -/
theorem witness_StatusAndItsAge :
    (trying .poll 1 .receiving none).dev.clc.exchange = some ⟨.poll, 1, .receiving, none⟩
      ∧ [0xE2#8, 0xFF#8, 3#8].length = 3 ∧ signedAt [0xE2#8, 0xFF#8, 3#8] 0 = -30
      ∧ (∀ read ∈ [none, some ⟨0, 32, true⟩],
        (polled read).dev.clc.exchange = some ⟨.poll, 1, .receiving, none⟩ ∧ (polled read).dev.ftu.read = read
        ∧ (polled read).dev.cu.phase.identified = true ∧ (polled read).dev.clc.changeCount = some 2
        ∧ 2 ≠ byteAt [0xE2#8, 0xFF#8, 3#8] 2 ∧ (polled read).dev.clc.pendingId = false
        ∧ (polled read).dev.clc.pendingPoll = false)
      ∧ (st (withCoach .ready)).dev.clc.tcState = .current
      ∧ (st (withCoach .ready)).dev.clc.lastStatus = some ⟨-30, 900⟩
      ∧ ((withCoach .ready).onClc fun clc => { clc with tcState := .held }).clc.tcState = .held := by decide

/-- The OPENED of a read from 32: one record more than that, and none. -/
theorem witness_OpenedGoesOnOrCompletes :
    (reading (.openRead 32 32) ⟨32, 32, false⟩ false 0).dev.clc.exchange = some ⟨.openRead 32 32, 1, .receiving, none⟩
      ∧ (reading (.openRead 32 32) ⟨32, 32, false⟩ false 0).dev.ftu.read = some ⟨32, 32, false⟩
      ∧ 32 < min 96 (byteAt [33#8] 0) ∧ min 96 (byteAt [32#8] 0) ≤ 32 := by decide

/-- RECORDS of two records at the read from 0 and from 64: end flag, budget used, budget left. -/
theorem witness_RecordsFrameIsMerged :
    (reading (.fetch false) ⟨0, 2, true⟩ false 0).dev.cu.phase.identified = true
      ∧ (reading (.fetch false) ⟨0, 2, true⟩ false 0).dev.clc.exchange = some ⟨.fetch false, 1, .receiving, none⟩
      ∧ (reading (.fetch false) ⟨0, 2, true⟩ false 0).dev.ftu.read = some ⟨0, 2, true⟩
      ∧ (reading (.fetch false) ⟨64, 2, true⟩ false 0).dev.ftu.read = some ⟨64, 2, true⟩
      ∧ (reading (.fetch false) ⟨0, 3, true⟩ false 0).dev.ftu.read = some ⟨0, 3, true⟩
      ∧ (List.replicate 17 0#8).length = 17 ∧ recordsToggle (List.replicate 17 0#8) = false
      ∧ recordsEnd (List.replicate 17 0#8) = false ∧ recordsEnd [2#8] = true
      ∧ 2 - (recordsOf (List.replicate 17 0#8)).length = 0 ∧ 0 < 3 - (recordsOf (List.replicate 17 0#8)).length
      ∧ (let s := reading (.fetch false) ⟨0, 2, true⟩ false 0;
        s.dev.clc.pendingId = false ∧ s.dev.clc.pendingPoll = false ∧ s.dev.clc.pendingRead = none
          ∧ s.dev.ftu.reread = false)
      ∧ ((reading (.fetch false) ⟨0, 3, true⟩ false 0).dev.onClc fun clc => { clc with pendingPoll := true }).clc.pendingPoll
        = true := by
  decide

/-- The sequence ends with a new read asked for, by the end flag and by a used budget at 64 (R43, R50). -/
theorem witness_RecordsFrameIsMerged_reread :
    ∀ start ∈ [0, 64],
      let s := st ((reading (.fetch false) ⟨start, 2, true⟩ false 0).dev.onFtu fun ftu => { ftu with reread := true });
      s.dev.cu.phase.identified = true ∧ s.dev.clc.exchange = some ⟨.fetch false, 1, .receiving, none⟩
        ∧ s.dev.ftu.read = some ⟨start, 2, true⟩ ∧ s.dev.ftu.reread = true ∧ s.dev.ftu.toggle = false := by decide

/-- The 19th and the 20th of BUSY and of the duplicates, and the timers, with the link UP and DOWN. -/
theorem witness_BusyAndFaultTimers :
    (let s := reading (.fetch true) ⟨0, 32, true⟩ true 18;
      s.dev.clc.exchange = some ⟨.fetch true, 1, .receiving, none⟩ ∧ s.dev.ftu.read.isSome = true
        ∧ recordsToggle [0#8] ≠ s.dev.ftu.toggle ∧ s.dev.ftu.busyCount + 1 < 20 ∧ s.dev.coupleNow = false
        ∧ s.dev.clc.pendingId = false ∧ s.dev.clc.pendingPoll = false)
      ∧ 20 ≤ (reading (.fetch true) ⟨0, 32, true⟩ true 19).dev.ftu.busyCount + 1
      ∧ (let s := (withCoach .ready).onFtu fun ftu => { ftu with busyWait := some 9, read := some ⟨0, 32, false⟩ };
        s.ftu.busyWait = some 9 ∧ s.ftu.read = some ⟨0, 32, false⟩ ∧ s.clc.linkUp = true ∧ s.coupleNow = false
          ∧ s.clc.exchange = none)
      ∧ (bay.clc.linkUp = false
        ∧ (bay.onFtu fun ftu => { ftu with busyWait := some 9, read := some ⟨0, 32, false⟩ }).ftu.busyWait = some 9)
      ∧ (∀ read ∈ [none, some ⟨0, 32, true⟩],
        let s := (withCoach .ready).onFtu fun ftu => { ftu with refreshTimer := some 9, read := read };
        s.ftu.refreshTimer = some 9 ∧ s.ftu.read = read ∧ s.cu.phase.identified = true ∧ s.clc.linkUp = true)
      ∧ (st clearing).dev.ftu.ageTimer = some 90000 := by decide

/-- An ACTIVE record of the severity given. -/
def fault (code severity : Nat) : FaultRecord := ⟨5, .doors, code, severity, true, 1, none⟩

/-- A table of 32 entries. -/
def full : Ftu := { Ftu.reset with table := (List.range 32).map fun k => ⟨fault (k + 1) 1, true⟩ }

theorem witness_MergeUpdatesAppendsEvictsOrDrops :
    (∃ e ∈ full.table, e.record.module = (fault 1 2).module ∧ e.record.code = (fault 1 2).code)
      ∧ (∀ e ∈ full.table, ¬ (e.record.module = (fault 99 2).module ∧ e.record.code = (fault 99 2).code))
      ∧ 32 ≤ full.table.length ∧ Ftu.reset.table.length < 32
      ∧ evictionCandidate 12#7 full.table = some (0, ⟨fault 1 1, true⟩)
      ∧ (fault 99 2).higher 12#7 (fault 1 1) = true ∧ (fault 99 1).higher 12#7 (fault 1 1) = false := by
  decide

theorem witness_EvictionCandidateIsTheLowest :
    full.table ≠ [] ∧ (fault 1 3).blocking 0#7 = true
      ∧ ((fault 1 2).blocking 0#7 = false ∧ (fault 1 2).active = true)
      ∧ ((FaultRecord.mk 5 .doors 1 3 false 1 none).blocking 0#7 = false) := by decide

theorem witness_JudgementFollowsTheOrder :
    prepared.identity = some coach ∧ (coach.entry 1).leds = 4 ∧ (coach.entry 16).leds = 4
      ∧ prepared.judge 1 1399 5 18000 = .short ∧ prepared.judge 1 1400 5 18000 = .partly
      ∧ prepared.judge 1 9800 5 18000 = .pass ∧ prepared.judge 16 9800 5 17999 = .unjudged
      ∧ prepared.judge 17 9800 4 17999 = .opened := by decide

theorem witness_RecordsFollowTheJudgement :
    (⟨1, .pass, 0, 0, 5, false, false, false, false⟩ : Channel).retries ≤ 6
      ∧ ((⟨1, .pass, 0, 0, 5, false, false, false, false⟩ : Channel).judged .short 9 9).isFinal = true
      ∧ ((⟨1, .pass, 0, 0, 4, false, false, false, false⟩ : Channel).judged .short 9 9).isFinal = false := by decide

/-- A bay that measures a channel. -/
def measuring (num : Nat) (stop : Bool) : State :=
  st (prepared.onLtu fun ltu =>
    { ltu with measuring := some num, measureTimer := some 9, pass := some ⟨.signal, [num], [num]⟩, stop := stop })

theorem witness_MeasurementEndsAreEntered :
    (measuring 17 true).dev.ltu.measuring = some 17 ∧ (measuring 17 true).dev.ltu.measureTimer = some 9
      ∧ (measuring 17 true).dev.ltu.stop = true ∧ (measuring 1 false).dev.ltu.stop = false
      ∧ (measuring 1 false).dev.ltu.measuring = some 1 ∧ (measuring 1 false).dev.ltu.measureTimer = some 9
      ∧ (measuring 1 false).dev.coupleNow = false := by decide

/-- A stopped pass with nothing behind it in a settled bay, and a pass with a channel left or none. -/
theorem witness_MeasurementEndsAreEntered_goesOn :
    (measuring 17 true).dev.evaluated ∧ (measuring 17 true).dev.phaseSettled
      ∧ ((∀ c ∈ (measuring 17 true).dev.ltu.channels, c.joins (measuring 17 true).dev.ftu = false)
        ∧ (measuring 17 true).dev.ltu.pendingRetest = false ∧ (measuring 17 true).dev.ltu.pendingSignal = false
        ∧ (measuring 17 true).dev.ltu.pendingFull = false)
      ∧ (measuring 17 false).dev.ltu.pass = some ⟨.signal, [17], [17]⟩ ∧ [17].tail = ([] : List Nat)
      ∧ (Pass.mk .full [1, 2] [1, 2]).remaining.tail = 2 :: [] := by
  refine ⟨?_, ⟨by decide, by decide⟩, by decide, by decide, by decide, by decide⟩
  unfold Device.evaluated; decide

/-- A bay in PREPARING with its Lamp Test Unit changed. -/
def lamps (f : Ltu → Ltu) : State := st (prepared.onLtu f)

/-- The lamp timers run in an evaluated and settled bay without a pass, or with one. -/
theorem witness_LampTimersMakePassesPending :
    ∀ pass ∈ [none, some ⟨.signal, [17], [17]⟩],
      let d := (lamps fun ltu =>
        { ltu with
          retestTimer := some 9, fullTimer := some 9, signalTimer := some 9, ageTimer := some 9, pass := pass }).dev
      d.ltu.retestTimer = some 9 ∧ d.ltu.fullTimer = some 9 ∧ d.ltu.signalTimer = some 9 ∧ d.ltu.pass = pass
        ∧ d.ltu.stop = false ∧ d.ltu.endedAt ≠ some (max d.clock 9) ∧ d.sc.mode.heats = true
        ∧ (∀ c ∈ d.ltu.channels, c.corroborated d.ftu = c) ∧ d.ltu.pendingRetest = false ∧ d.ltu.pendingSignal = false
        ∧ d.passSet .signal = [17, 18, 19] ∧ d.cu.blocks.preparation = true ∧ d.cu.blocks.noPlan = false := by decide

theorem witness_LampTimersMakePassesPending_settled :
    (lamps fun ltu => { ltu with retestTimer := some 9, ageTimer := none }).dev.evaluated
      ∧ (lamps fun ltu => { ltu with retestTimer := some 9, ageTimer := none }).dev.phaseSettled
      ∧ (lamps fun ltu => { ltu with requests := [3] }).dev.passSet .retest = [3] := by
  refine ⟨?_, ⟨by decide, by decide⟩, by decide⟩
  unfold Device.evaluated; decide

/-- A pass that began at the moment at which another ended, in a bay where channel 3 has failed. -/
def begun (kind : PassKind) : Device :=
  passEnding.onLtu fun ltu =>
    { ltu with
      pass := some ⟨kind, [17], [17]⟩, measureTimer := some 41000, endedAt := some 1000, pendingFull := false,
      signalTimer := some 9 }

/-- At that moment a retest timer and a signal pass timer run out. -/
theorem witness_LampTimersMakePassesPending_atTheEnd :
    (∀ kind ∈ [PassKind.signal, .full],
        (begun kind).ltu.pass = some ⟨kind, [17], [17]⟩ ∧ (begun kind).ltu.retestTimer = some 1000
        ∧ (begun kind).ltu.endedAt = some (max (begun kind).clock 1000)
        ∧ ((begun kind).unbegin ⟨kind, [17], [17]⟩).passSet .retest = [3]
        ∧ ((begun kind).unbegin ⟨kind, [17], [17]⟩).passSet .signal = [17, 18, 19]
        ∧ (begun kind).ltu.pendingRetest = false ∧ (begun kind).ltu.stop = false
        ∧ (begun kind).sc.mode.heats = true ∧ (begun kind).cu.phase.prepared = true
        ∧ (begun kind).ltu.endedAt = some (max (begun kind).clock 9)
        ∧ ∀ c ∈ (begun kind).ltu.channels, c.corroborated (begun kind).ftu = c)
      ∧ (begun .full).evaluated ∧ (begun .full).phaseSettled := by
  refine ⟨by decide, ?_, ⟨by decide, by decide⟩⟩
  unfold Device.evaluated; decide

/-- A channel that joins the corroboration set, one that leaves it, one that does neither. -/
theorem witness_LampTimersMakePassesPending_corroborated :
    let ftu := { Ftu.reset with table := [⟨⟨5, .lighting, 1, 1, true, 1, some 3⟩, true⟩] }
    (⟨3, .initial, 0, 0, 0, false, false, false, false⟩ : Channel).joins ftu = true
      ∧ ftu.corroborates 4 = false ∧ (Channel.off 4).joins ftu = false ∧ (Channel.off 4).coachReported = false := by
  decide

/-- An unplug in READY while a pass is in flight: of the signal alone, with coach channels, waiting for the window. -/
theorem witness_LampTimersMakePassesPending_unplug :
    ∀ phase ∈ [Phase.ready, .cleared],
      let d := (plugging false (withCoach phase)).dev.onLtu fun ltu =>
        { ltu with pass := some ⟨.full, [1, 17], [1, 17]⟩, window := .waiting }
      d.clc.plugFilter = some 201000 ∧ d.clc.plug = true ∧ d.pins.plug = false ∧ d.cu.phase.prepared = true
        ∧ d.ltu.pass = some ⟨.full, [1, 17], [1, 17]⟩ ∧ d.ltu.stop = false ∧ hasCoach [1, 17] = true
        ∧ hasCoach [17] = false ∧ d.ltu.measuring = none ∧ d.ltu.window = .waiting ∧ d.ltu.pendingRetest = false
        ∧ d.ltu.pendingSignal = false ∧ (∀ c ∈ d.ltu.channels, c.joins d.ftu = false)
        ∧ (some 41000 : Timer) ≠ some (max d.clock 201000 + 40000)
        ∧ d.ltu.endedAt ≠ some (max d.clock 201000) := by decide

/-- The bay of `prepared` at the stage given, its full pass timer running. -/
def fullDue (stage : Nat) : Device :=
  (prepared.onLtu fun ltu => { ltu with fullTimer := some 9 }).onHcu fun hcu => { hcu with stage := stage }

/-- Stage 2 stands above the window stage 0, stage 0 does not. -/
theorem witness_CoachPassesWaitForTheWindow :
    ((fullDue 2).ltu.fullTimer = some 9 ∧ (fullDue 2).evaluated ∧ (fullDue 2).phaseSettled
      ∧ (fullDue 0).evaluated ∧ (fullDue 0).phaseSettled)
      ∧ ((fullDue 2).cu.phase.prepared = true ∧ (fullDue 2).sc.mode.heats = true ∧ (fullDue 2).ltu.pass = none
        ∧ (fullDue 2).ltu.measuring = none ∧ (fullDue 2).ltu.window = .none ∧ (fullDue 2).hcu.window = .none
        ∧ (fullDue 2).ltu.pendingRetest = false ∧ (fullDue 2).ltu.pendingSignal = false
        ∧ (∀ c ∈ (fullDue 2).ltu.channels, c.joins (fullDue 2).ftu = false)
        ∧ (∃ c ∈ (fullDue 2).ltu.channels, c.num ≤ 16 ∧ c.status ≠ .off))
      ∧ ((fullDue 0).hcu.stage ≤ (fullDue 0).windowStage ∧ (fullDue 2).windowStage < (fullDue 2).hcu.stage
        ∧ (fullDue 2).hcu.stage ≤ (fullDue 2).hcu.target ∧ (fullDue 2).hcu.stage ≤ (fullDue 2).targetStage
        ∧ (fullDue 2).claimForced = false) := by
  refine ⟨⟨by decide, ?_, ⟨by decide, by decide⟩, ?_, ⟨by decide, by decide⟩⟩, by decide, by decide⟩
  all_goals unfold Device.evaluated; decide

/-- A bay whose window is settling, the unit waiting for it or not. -/
def settling (window : LtuWindow) : State :=
  st ((prepared.onLtu fun ltu => { ltu with window := window, pass := some ⟨.full, [1, 2], [1, 2]⟩ }).onHcu fun hcu =>
    { hcu with window := .settling, settling := some 9 })

theorem witness_CoachPassesWaitForTheWindow_settled :
    ((settling .waiting).dev.evaluated ∧ (settling .waiting).dev.phaseSettled)
      ∧ (settling .waiting).dev.hcu.settling = some 9 ∧ (settling .waiting).dev.ltu.stop = false
      ∧ (settling .waiting).dev.ltu.window = .waiting
      ∧ (settling .waiting).dev.ltu.endedAt ≠ some (max (settling .waiting).dev.clock 9)
      ∧ (settling .waiting).dev.ltu.pass = some ⟨.full, [1, 2], [1, 2]⟩
      ∧ (settling .none).dev.hcu.settling = some 9 ∧ (settling .none).dev.ltu.window ≠ .waiting := by
  refine ⟨⟨?_, by decide, by decide⟩, by decide⟩
  unfold Device.evaluated; decide

/-- The heat computation of Chapter 5's station: ΔT = 66 half-degrees. -/
theorem witness_EnergyAndHoldingPower :
    prepared.hpRuns = true ∧ prepared.cu.plan = some plan90 ∧ prepared.identity = some coach
      ∧ prepared.clc.usableTc = some (-30) ∧ (100 ≤ coach.capacity ∧ coach.capacity ≤ 2500)
      ∧ (20 ≤ coach.loss ∧ coach.loss ≤ 1000) ∧ (20 ≤ plan90.target ∧ plan90.target ≤ 48)
      ∧ (-80 ≤ prepared.hp.toInUse ∧ prepared.hp.toInUse ≤ 100) ∧ prepared.hpValues.deltaT = 66 := by decide

/-- A usable temperature, an idle HP, a STALE one; a lockout. -/
theorem witness_ClaimAndSlack :
    (prepared.hpRuns = true ∧ prepared.cu.plan = some plan90 ∧ prepared.clc.usableTc = some (-30)
        ∧ plan90.minutes ≤ 1080 ∧ prepared.hcu.faultLockout = false ∧ prepared.hcu.overLockout = false)
      ∧ bay.hpRuns = false
      ∧ ((prepared.onClc fun clc => { clc with tcState := .stale }).hpRuns = true
        ∧ (prepared.onClc fun clc => { clc with tcState := .stale }).clc.tcState = .stale)
      ∧ (prepared.onHcu fun hcu => { hcu with overLockout := true }).hpRuns = true := by decide

/-- R84: the idle and running clauses, on an evaluated bay. -/
theorem witness_ClaimAndSlack_runs : prepared.evaluated ∧ prepared.hpRuns = true ∧ bay.hpRuns = false :=
  ⟨by unfold Device.evaluated; decide, by decide, by decide⟩

/-- A peer of the station number given. -/
def peer (station q : Nat) : PeerEntry := ⟨station, 3, 1, .preparing, none, .run, q, 10, some 90, 1000⟩

theorem witness_GrantFollowsTheRanking :
    (peer 7 48).ahead 10 21 = true ∧ (peer 21 48).ahead 10 21 = false
      ∧ (prepared.sc.mode = .run ∧ prepared.sc.alarms.shedLineFault = false)
      ∧ (prepared.onAlarms fun a => { a with shedLineFault := true }).sc.alarms.shedLineFault = true
      ∧ (prepared.onLu fun lu => { lu with peers := [peer 7 160] }).claimsAhead = 160 := by decide

theorem witness_TargetStageAndChoice :
    prepared.identity = some coach ∧ 0 < coach.rating ∧ 0 < coach.stages
      ∧ (prepared.hcu.asserted = false ∧ prepared.hcu.faultLockout = false ∧ prepared.hcu.overLockout = false
        ∧ prepared.sc.mode.heats = true ∧ prepared.cu.phase.prepared = true ∧ prepared.cu.matchState = .matched
        ∧ prepared.hcu.rejoinCap = none ∧ prepared.hcu.window = .none ∧ prepared.targetStage = 4)
      ∧ ((prepared.onHcu fun hcu => { hcu with rejoinCap := some 3 }).targetStage = 3
        ∧ (prepared.onHcu fun hcu => { hcu with window := .settling, rejoinCap := some 3 }).targetStage = 0)
      ∧ bay.identity = none
      ∧ (2 ≤ prepared.hcu.stage ∧ prepared.hcu.stage < 4 ∧ prepared.hcu.holdOff = none)
      ∧ prepared.windowStage < 1 := by decide

/-- A station whose shed filter counts towards the level given. -/
def shedding (asserted : Bool) (config : Option StationConfig) : State :=
  st (((prepared.onSc fun sc => { sc with config := config }).onPins fun pins => { pins with shedHigh := asserted }).onHcu
    fun hcu => { hcu with asserted := asserted, shedFilter := some 51000, holdOff := some 9 })

theorem witness_ShedLineStopsTheHeater :
    ∀ asserted ∈ [false, true], ∀ config ∈ [none, some conf],
      (shedding asserted config).dev.hcu.shedFilter = some 51000
      ∧ (shedding asserted config).dev.hcu.asserted = asserted
      ∧ (shedding asserted config).dev.pins.shedHigh = asserted
      ∧ (shedding asserted config).dev.sc.config = config ∧ (shedding asserted config).dev.hcu.holdOff = some 9 := by
  decide

/-- A bay whose current monitor stands as given, with the draw given. -/
def monitored (monitor : Monitor) (pull : ShedPull) (watts : Nat) : State :=
  st ((prepared.onPins fun pins => { pins with power := watts }).onHcu fun hcu =>
    { hcu with monitor := monitor, monitorTimer := some 9, pull := pull, pullTimer := some 9 })

/-- Pfull is 12,000 W: 5 % of it are 600 W. -/
theorem witness_MonitorActsOnTheDraw :
    prepared.monitorFull = 12000 ∧ 20 * 599 < prepared.monitorFull ∧ prepared.monitorFull ≤ 20 * 600
      ∧ (monitored .overTiming .none 6601).dev.hcu.monitor = .overTiming
      ∧ (monitored .overTiming .none 6601).dev.hcu.monitorTimer = some 9
      ∧ (monitored .stuckTiming .none 601).dev.hcu.monitor = .stuckTiming
      ∧ (monitored .watching .overcurrent 601).dev.hcu.pullTimer = some 9
      ∧ (monitored .watching .overcurrent 601).dev.hcu.pull = .overcurrent := by decide

/-- The stage 2 draws 6,000 W: above 6,600 W the overdraw timing begins, and it ends at 6,600 W. -/
theorem witness_MonitorActsOnTheDraw_timing :
    (∃ t, exec (.measuredPowerChange 6601) (st prepared) = .next t ∧ t.dev.hcu.monitor = .overTiming
      ∧ prepared.hcu.monitor ≠ .overTiming)
      ∧ (∃ t, exec (.measuredPowerChange 6600) (monitored .overTiming .none 6601) = .next t
        ∧ t.dev.hcu.monitor = .watching)
      ∧ ∃ t, exec (.measuredPowerChange 601)
          (st ((prepared.onPins fun pins => { pins with power := 0 }).onHcu fun hcu =>
            { hcu with stage := 0, target := 0 })) = .next t
        ∧ t.dev.hcu.monitor = .stuckTiming :=
  ⟨⟨_, rfl, by decide, by decide⟩, ⟨_, rfl, by decide⟩, _, rfl, by decide⟩

theorem witness_ClearanceTimersMoveTheBay :
    ((st ((withCoach .departing).onCu fun cu => { cu with presence := some 9 })).dev.cu.presence = some 9
        ∧ (withCoach .departing).cu.phase = .departing ∧ (withCoach .departing).clc.plug = true
        ∧ (withCoach .departing).sc.mode.heats = true)
      ∧ ¬ (((withCoach .departing).onClc fun clc => { clc with plug := false }).clc.plug = true
        ∧ (withCoach .departing).sc.mode.heats = true)
      ∧ (plugging false (withCoach .departing) |>.dev.clc.plug) = true
      ∧ (clearing.cu.intentTimer = some 7000 ∧ clearing.cu.phase = .clearing ∧ clearing.evaluated)
      ∧ (clearing.cu.blocks.revoking = false ∧ ∀ plan, clearing.cu.plan = some plan → plan.minutes ≤ clearing.conf.releaseLead)
      ∧ (st (bay.onCu fun cu => { cu with spacing := some 9 })).dev.cu.spacing = some 9
      ∧ (st (bay.onCu fun cu => { cu with flash := some 9 })).dev.cu.flash = some 9 := by
  refine ⟨by decide, by decide, by decide, ⟨by decide, by decide, ?_⟩, ⟨by decide, ?_⟩, by decide, by decide⟩
  · unfold Device.evaluated; decide
  · intro plan h; cases h; decide

/-- A line that is quiet or not, with a frame ready. -/
def lined (f : Lu → Lu) : State := st (bay.onLu f)

theorem witness_LineEventsMoveTheReceiver :
    (lined fun lu => { lu with quietTimer := some 9, unbegun := true }).dev.sc.mode.hears = true
      ∧ (lined fun lu => { lu with quietTimer := some 9, unbegun := true }).dev.lu.sending = false
      ∧ (lined fun lu => { lu with quietTimer := some 9, unbegun := true }).dev.lu.quietTimer = some 9
      ∧ (lined fun lu => { lu with quietTimer := some 9, unbegun := true }).dev.readyToSend = true
      ∧ (lined fun lu => { lu with lastNotice := some 9 }).dev.lu.lastNotice = some 9
      ∧ (hearing bay).dev.lu.receiver = .assembling ∧ (hearing bay).dev.lu.sending = false := by decide

/-- A NOTICE in flight, a NOTICE that may begin at the end of its hold-back, a LIST while it may not. -/
theorem witness_BackoffEndsInAnAttempt :
    (let s := lined fun lu => { lu with quiet := true, backoff := some 1384, flight := some ⟨.list ⟨2, .line, 0, 1, []⟩, [], 1⟩ };
      s.dev.sc.mode.speaks = true ∧ s.dev.lu.quiet = true ∧ s.dev.lu.backoff = some 1384 ∧ s.dev.lu.flight.isSome = true)
      ∧ (let s := lined fun lu => { lu with quiet := true, backoff := some 250000, unbegun := true, lastNotice := some 0 };
        s.dev.lu.flight = none ∧ s.dev.lu.unbegun = true ∧ s.dev.lu.lastNotice = some 0
          ∧ 0 + 250000 ≤ max s.dev.clock 250000)
      ∧ (let s := lined fun lu => { lu with quiet := true, backoff := some 249999, unbegun := true, lastNotice := some 0, lists := [⟨2, .line, 0, 1, []⟩] };
        s.dev.lu.flight = none ∧ max s.dev.clock 249999 < 0 + 250000 ∧ s.dev.lu.lists = [⟨2, .line, 0, 1, []⟩]) := by
  decide

/-- The fifth and the sixth failed attempt of the NOTICE that was to announce CLEARING. -/
def announcing (failed : Nat) : State :=
  driving (.notice clearing.snapshot) failed (clearing.onCu fun cu => { cu with intent := .awaiting })

/-- What `ReplyGoesOn` asks of the reply and of the LIST frames queued: each of its cases is met. -/
theorem witness_ReplyGoesOn :
    prepared.subjectTotal .lamps = 19 ∧ prepared.sc.mode.speaks = true
      ∧ (5 ≠ 0 ∧ 19 ≤ (⟨.lamps, 2, 19, 5⟩ : Reply).next) ∧ (⟨.lamps, 2, 19, 0⟩ : Reply).offered = 0
      ∧ 18 < 19 ∧ 19 ≤ 18 + min Subject.lamps.limit (19 - 18) ∧ 0 + min Subject.lamps.limit (19 - 0) < 19
      ∧ ∀ n ∈ [0, 1, 2],
        (prepared.onLu fun lu => { lu with flight := none, lists := List.replicate n ⟨2, .line, 0, 1, []⟩ }).lu.lists.length
          = n := by decide

theorem witness_CollisionsFailTheAttempt_dropped :
    (driving (.list ⟨2, .lamps, 0, 19, []⟩) 5 prepared).dev.lu.flight = some ⟨.list ⟨2, .lamps, 0, 19, []⟩, [], 5⟩
      ∧ (driving (.notice prepared.snapshot) 5 prepared).dev.lu.flight = some ⟨.notice prepared.snapshot, [], 5⟩
      ∧ prepared.snapshot.phase ≠ .clearing ∧ (announcing 5).dev.evaluated
      ∧ (announcing 5).dev.cu.blocks.preparation = false ∧ (announcing 5).dev.cu.blocks.noPlan = false := by
  refine ⟨by decide, by decide, by decide, ?_, by decide, by decide⟩
  unfold Device.evaluated; decide

theorem witness_CollisionsFailTheAttempt :
    (announcing 4).dev.lu.sending = true ∧ (announcing 4).dev.lu.flight = some ⟨.notice clearing.snapshot, [], 4⟩
      ∧ 4 + 1 < 6 ∧ (announcing 5).dev.lu.flight = some ⟨.notice clearing.snapshot, [], 5⟩ ∧ 6 ≤ 5 + 1
      ∧ clearing.snapshot.phase = .clearing ∧ (announcing 5).dev.cu.phase = .clearing
      ∧ (announcing 5).dev.cu.intent = .awaiting := by decide

/-- A raise that the claim sent covers, and a contest. -/
theorem witness_NoticeCompletionActs :
    (let s := driving (.notice prepared.snapshot) 0 (prepared.onHcu fun hcu => { hcu with raise := some 3 });
      s.dev.lu.sending = true ∧ s.dev.lu.flight = some ⟨.notice prepared.snapshot, [], 0⟩
        ∧ s.dev.identity = some coach ∧ s.dev.hcu.raise = some 3
        ∧ coach.rating * 3 ≤ prepared.snapshot.q * coach.stages ∧ 3 ≤ s.dev.targetStage)
      ∧ ((announcing 0).dev.lu.sending = true ∧ clearing.snapshot.phase = .clearing
        ∧ (announcing 0).dev.cu.phase = .clearing)
      ∧ (let d := prepared.onSc fun sc => { sc with fault := ⟨.dirty, false⟩ };
        d.snapshot.faultStatus = .dirty ∧ d.sc.fault = ⟨.dirty, false⟩ ∧ d.coupleNow = false) := by decide

/-- A completion that changes no LAMP or HEAT content, in an evaluated and settled bay with every section DIRTY in the
snapshot: LAMP keeps its mark and stays DIRTY, HEAT becomes CLEAN. -/
theorem witness_NoticeCompletionActs_sections :
    ∃ d : Device, d = (prepared.onSc fun sc => { sc with phase := ⟨.dirty, false⟩, heat := ⟨.dirty, false⟩, lamp := ⟨.dirty, true⟩ })
      ∧ d.coupleNow = false ∧ d.evaluated ∧ d.phaseSettled
      ∧ ∃ t, exec .noticeCompletion (driving (.notice d.snapshot) 0 d) = .next t ∧ d.lampSame t.dev ∧ d.heatSame t.dev
        ∧ d.windowKept t.dev ∧ d.snapshot.lampStatus = .dirty ∧ t.dev.sc.lamp = ⟨.dirty, true⟩
        ∧ t.dev.sc.heat = ⟨.clean, false⟩ ∧ t.dev.sc.phase = ⟨.clean, false⟩ := by
  refine ⟨_, rfl, by decide, ?_, ⟨by decide, by decide⟩, _, rfl, ?_, ?_, ?_, by decide, by decide, by decide, by decide⟩
  · unfold Device.evaluated; decide
  · unfold Device.lampSame; decide
  · unfold Device.heatSame; decide
  · unfold Device.windowKept; decide

/-- A raise within the target in an evaluated and settled bay, and the first NOTICE that shows CLEARING. -/
theorem witness_NoticeCompletionActs_settled :
    (let d := prepared.onHcu fun hcu => { hcu with raise := some 3, target := 3 };
      d.evaluated ∧ d.phaseSettled ∧ d.hcu.raise = some 3 ∧ 3 ≤ d.hcu.target ∧ d.claimForced = false
        ∧ d.ltu.stop = false ∧ (∀ c ∈ d.ltu.channels, c.joins d.ftu = false) ∧ d.ltu.pendingRetest = false
        ∧ d.ltu.pendingSignal = false ∧ d.ltu.pendingFull = false)
      ∧ (announcing 0).dev.evaluated ∧ (announcing 0).dev.phaseSettled ∧ (announcing 0).dev.cu.intent = .awaiting
      ∧ clearing.cu.intent = .window := by
  refine ⟨⟨?_, ⟨by decide, by decide⟩, by decide, by decide, by decide, by decide, by decide⟩, ?_, ⟨by decide, ?_⟩,
    rfl, rfl⟩
  · unfold Device.evaluated; decide
  · unfold Device.evaluated; decide
  · intro plan h; cases h; decide

/-- A LIST is sent to its end, with a reply in progress or none. -/
def listing (reply : Option Reply) (lists : List ListFrame) : State :=
  driving (.list ⟨2, .lamps, 0, 19, []⟩) 0 (prepared.onLu fun lu => { lu with reply := reply, lists := lists })

theorem witness_ListCompletionOffersTheNext :
    (listing none []).dev.lu.sending = true
      ∧ (listing none []).dev.lu.flight = some ⟨.list ⟨2, .lamps, 0, 19, []⟩, [], 0⟩
      ∧ (listing none []).dev.lu.reply = none
      ∧ (listing (some ⟨.lamps, 2, 19, 0⟩) [⟨2, .line, 0, 1, []⟩]).dev.lu.reply = some ⟨.lamps, 2, 19, 0⟩
      ∧ (listing (some ⟨.lamps, 2, 19, 0⟩) [⟨2, .line, 0, 1, []⟩]).dev.sc.mode.speaks = true := by decide

/-- R167: a refused first offer without entries is made again as a first offer, and its acceptance ends the reply. -/
theorem test_empty_first_list :
    ∃ t, exec .listCompletion (listing (some ⟨.lamps, 2, 19, 0⟩) [⟨2, .line, 0, 1, []⟩]) = .next t
      ∧ t.dev.lu.reply = none ∧ t.dev.lu.lists.length = 2 := ⟨_, rfl, by decide⟩

/-- The payload of a NOTICE: lane, position with mode RUN, phase, M. -/
def notice (lane phase : Nat) (minutes : Nat) : List Byte :=
  [byteOf lane, 0x31#8, byteOf phase, 0, 0, 0, 0, byteOf (minutes % 256), byteOf (minutes / 256), 48, 0, 0, 10, 0, 0, 0]

/-- What every frame of another node asks for. -/
theorem hears_of (d : Device) (hm : d.sc.mode = .run) (hr : d.lu.receiver = .assembling) (hs : d.lu.sending = false)
    (hc : d.conf.station = 21) : d.hearsFrom 2#8 21#8 ∧ d.hearsFrom 7#8 0#8 ∧ d.hearsFrom 63#8 0#8 := by
  simp [Device.hearsFrom, hm, hr, hs, hc, Mode.hears]

theorem witness_NoticesKeepThePeerTable :
    (hearing clearing).dev.hearsFrom 7#8 0#8 ∧ (notice 3 5 4).length = 16 ∧ noticeOk (notice 3 5 4) = true
      ∧ (noticeEntry 7 (notice 3 5 4) none 9).phase = .clearing
      ∧ (noticeEntry 7 (notice 3 5 4) none 9).minutes = some 4
      ∧ ((hearing clearing).dev.cu.phase = .clearing ∧ (hearing clearing).dev.cu.intent = .window
        ∧ (hearing clearing).dev.cu.key = some ⟨5, 21⟩)
      ∧ (noticeEntry 7 (notice 3 6 4) none 9).phase = .cleared
      ∧ noticeOk (notice 17 5 4) = false
      ∧ findPeer (lined fun lu => { lu with peers := [peer 7 48] }).dev.lu.peers 7 = some (peer 7 48) :=
  ⟨(hears_of _ rfl rfl rfl rfl).2.1, by decide⟩

set_option maxRecDepth 20000 in
/-- A lost contest in an evaluated and settled bay, by a lower key and by a transition into CLEARED: READY, with the retry
hold set; the key (5, 30) is higher and ends nothing. -/
theorem witness_NoticesKeepThePeerTable_lost :
    (hearing clearing).dev.evaluated ∧ (hearing clearing).dev.phaseSettled
      ∧ (hearing clearing).dev.cu.blocks.preparation = false ∧ (hearing clearing).dev.cu.blocks.noPlan = false
      ∧ (hearing clearing).dev.coupleNow = false
      ∧ (∃ t, exec (.noticeReceived 7#8 0#8 (notice 3 5 4)) (hearing clearing) = .next t ∧ t.dev.cu.phase = .ready
        ∧ t.dev.cu.retryHold = true ∧ t.dev.cu.key = none)
      ∧ (∃ t, exec (.noticeReceived 30#8 0#8 (notice 3 6 4)) (hearing clearing) = .next t ∧ t.dev.cu.phase = .ready
        ∧ t.dev.cu.spacing = some 45001000)
      ∧ ∃ t, exec (.noticeReceived 30#8 0#8 (notice 3 5 5)) (hearing clearing) = .next t ∧ t.dev.cu.phase = .clearing
        ∧ t.dev.cu.key = some ⟨5, 21⟩ := by
  refine ⟨?_, ⟨by decide, ?_⟩, by decide, by decide, by decide, ⟨_, rfl, by decide, by decide, by decide⟩,
    ⟨_, rfl, by decide, by decide⟩, _, rfl, by decide, by decide⟩
  · unfold Device.evaluated; decide
  · intro plan h; cases h; decide

set_option maxRecDepth 20000 in
/-- R115, R161: an accepted NOTICE in ISOLATED begins the rejoin period with the stage as its cap. -/
theorem test_notice_begins_rejoin :
    ∃ t, exec (.noticeReceived 7#8 0#8 (notice 4 3 90)) (hearing (prepared.onSc fun sc => { sc with mode := .isolated }))
        = .next t
      ∧ t.dev.sc.rejoin = some 2 ∧ t.dev.hcu.rejoinCap = some 2 :=
  ⟨_, rfl, by decide, by decide⟩

theorem witness_NoticeFieldsAreChecked :
    noticeOk (notice 16 7 1080) = true ∧ noticeOk (notice 1 0 65535) = true ∧ noticeOk (notice 0 0 0) = false
      ∧ noticeOk (notice 1 8 0) = false ∧ noticeOk (notice 1 0 1081) = false
      ∧ (noticeEntry 7 (notice 16 7 65535) none 0).minutes = none
      ∧ (noticeEntry 7 ((notice 16 7 5).set 13 0x80#8) none 0).slack = -1080
      ∧ (noticeEntry 7 ((notice 16 7 5).set 13 0x7F#8) none 0).slack = 1080 := by decide

/-- A station whose values lie in their ranges. -/
theorem witness_NoticeFieldsAreChecked_own :
    (1 ≤ prepared.conf.lane ∧ prepared.conf.lane ≤ 16 ∧ 1 ≤ prepared.conf.position ∧ prepared.conf.position ≤ 4)
      ∧ prepared.hp.q ≤ 160 ∧ prepared.hcu.grant ≤ 160 ∧ prepared.hcu.stage ≤ 7
      ∧ (-1080 ≤ prepared.hp.slack ∧ prepared.hp.slack ≤ 1080)
      ∧ (∀ plan, prepared.cu.plan = some plan → plan.minutes ≤ 1080)
      ∧ (∀ last, prepared.clc.lastStatus = some last → -80 ≤ last.tc ∧ last.tc ≤ 100) :=
  ⟨by decide, by decide, by decide, by decide, by decide, fun plan h => by cases h; decide,
    fun last h => by cases h; decide⟩

theorem witness_OwnNumberIsAConflict :
    frameAddresses (.listReceived 21#8 0#8) = some (21#8, 0#8)
      ∧ frameAddresses (.noticeReceived 21#8 63#8 (notice 3 5 4)) = some (21#8, 63#8)
      ∧ ((hearing bay).dev.receives = true ∧ (21#8 : Byte).toNat = (hearing bay).dev.conf.station
        ∧ (hearing bay).dev.sc.mode.speaks = true)
      ∧ (hearing (bay.onSc fun sc => { sc with mode := .conflict })).dev.receives = true
      ∧ (lined fun lu => { lu with lineEvent := some 1000 }).dev.atLineEvent = true
      ∧ (21#8 : Byte).toNat = (lined fun lu => { lu with lineEvent := some 1000 }).dev.conf.station := by decide

theorem obeys_of (d : Device) (hm : d.sc.mode = .run) (hr : d.lu.receiver = .assembling) (hs : d.lu.sending = false)
    (hc : d.sc.config = some conf) : d.obeys 2#8 21#8 := by
  have h : d.conf = conf := by simp [Device.conf, hc]
  refine ⟨(hears_of d hm hr hs (by rw [h]; rfl)).1, by rw [h]; rfl, by decide, .inl (by rw [h]; rfl)⟩

theorem witness_PlansAreStoredAndCancelled :
    (hearing prepared).dev.obeys 2#8 21#8 ∧ (List.replicate 8 0#8).length = 8
      ∧ (hearing prepared).dev.cu.plan.isSome = true ∧ (hearing bay).dev.obeys 2#8 21#8
      ∧ (hearing bay).dev.cu.plan = none ∧ (hearing bay).dev.cu.plan ≠ some (readPlan (List.replicate 8 0#8))
      ∧ (hearing bay).dev.sc.mode.speaks = true :=
  ⟨obeys_of _ rfl rfl rfl rfl, by decide, by decide, obeys_of _ rfl rfl rfl rfl, by decide, by decide, by decide⟩

theorem witness_HoldAndAcknowledgeAct :
    (hearing bay).dev.hearsFrom 2#8 21#8 ∧ (2#8 : Byte).toNat = (hearing bay).dev.conf.dispatch1
      ∧ [7#8, 0#8].length = 2 ∧ (hearing bay).dev.obeys 2#8 21#8 ∧ [255#8].length = 1 :=
  ⟨(hears_of _ rfl rfl rfl rfl).1, by decide, by decide, obeys_of _ rfl rfl rfl rfl, by decide⟩

/-- A station that obeys a QUERY: receiving it, driving a LIST of its own, or the moment after. -/
theorem obeysQuery_of (d : Device) (h : d.receives = true ∨ d.queryBesideEvent = true) (hc : d.sc.config = some conf) :
    d.obeysQuery 2#8 21#8 := by
  have k : d.conf = conf := by simp [Device.conf, hc]
  refine ⟨h, by decide, by decide, by decide, ?_, ?_, by decide, .inl ?_⟩ <;> rw [k] <;> decide

/-- No LIST held, one, and two; CONFLICT hears as well; an own LIST is driven, or it has left or a number conflict was reported at
this moment. -/
theorem witness_QueriesStartTheirReply :
    (∀ n ∈ [0, 1, 2], let d := (hearing (bay.onLu fun lu => { lu with lists := List.replicate n ⟨2, .line, 0, 1, []⟩ })).dev;
        d.receives = true ∧ d.sc.config = some conf ∧ d.lu.listsHeld = n ∧ d.sc.mode.speaks = true)
      ∧ (hearing (bay.onSc fun sc => { sc with mode := .conflict })).dev.receives = true
      ∧ (listing none []).dev.queryBesideEvent = true ∧ (listing none []).dev.receives = false
      ∧ (lined fun lu => { lu with lineEvent := some 1000 }).dev.queryBesideEvent = true
      ∧ (19 = prepared.subjectTotal .lamps ∧ min Subject.lamps.limit (19 - 0) = 4 ∧ 0 + 4 < 19
        ∧ 19 ≤ 16 + min Subject.lamps.limit (19 - 16)) := by decide

theorem witness_QueriesStartTheirReply_obeys :
    (hearing bay).dev.obeysQuery 2#8 21#8 ∧ (listing none []).dev.obeysQuery 2#8 21#8
      ∧ (lined fun lu => { lu with lineEvent := some 1000 }).dev.obeysQuery 2#8 21#8 :=
  ⟨obeysQuery_of _ (.inl (by decide)) rfl, obeysQuery_of _ (.inr (by decide)) rfl, obeysQuery_of _ (.inr (by decide)) rfl⟩

/-- Values that lie within the fields of Tables 65 and 66. -/
theorem witness_QueriesStartTheirReply_fields :
    (∀ c ∈ prepared.ltu.channels, c.lastV ≤ 65535 ∧ c.lastI ≤ 255 ∧ c.retries ≤ 6)
      ∧ (∀ e ∈ full.table, e.record.module ≤ 63 ∧ e.record.severity ≤ 3 ∧ e.record.code ≤ 65535
        ∧ e.record.occurrences ≤ 255 ∧ e.record.hint = none)
      ∧ prepared.lu.stats.format ≤ 65535 ∧ prepared.ftu.overflow ≤ 255 ∧ prepared.subjectTotal .lamps ≤ 255
      ∧ (-80 ≤ prepared.hp.toInUse ∧ prepared.hp.toInUse ≤ 100 ∧ prepared.hp.ew ≤ 160000
        ∧ prepared.hp.p ≤ 2730667 ∧ prepared.hcu.announced ≤ 160 ∧ prepared.hp.tf ≤ 1080
        ∧ prepared.hcu.energy ≤ 4294967295) := by decide

theorem witness_UnacceptedDispatchFramesActOnNothing :
    dispatchAddresses (.queryLamps 2#8 9#8 0#8) = some (2#8, 9#8) ∧ (hearing bay).dev.hearsFrom 7#8 0#8
      ∧ (hearing bay).dev.hearsFrom 2#8 9#8 ∧ (9#8 : Byte).toNat ≠ (hearing bay).dev.conf.station
      ∧ (7#8 : Byte).toNat ≠ (hearing bay).dev.conf.dispatch1 ∧ (7#8 : Byte).toNat ≠ (hearing bay).dev.conf.dispatch2
      ∧ (hearing bay).dev.hearsFrom 2#8 0#8 ∧ (∀ payload, Instr.queryLamps 2#8 0#8 0#8 ≠ .hold 2#8 0#8 payload) := by
  unfold Device.hearsFrom
  exact ⟨by decide, by decide, by decide, by decide, by decide, by decide, by decide, by simp⟩

/-- A bay at stage 2 with a claim tick waiting: the invariants hold in it and a step is taken. -/
theorem witness_invariants :
    (prepared.stageCapped ∧ prepared.stageAnnounced ∧ prepared.identifiesInCoupling ∧ prepared.evaluated
      ∧ prepared.phaseSettled ∧ prepared.peersOk)
      ∧ (prepared.ltu.tableOk ∧ prepared.ftu.tableOk ∧ prepared.countersOk ∧ prepared.lu.queueOk
        ∧ prepared.cu.contestOk ∧ prepared.silentModes ∧ prepared.conflictSilent ∧ prepared.monitorOk
        ∧ prepared.aspectOk)
      ∧ ∃ t, step ⟨[.claimTick 0], prepared⟩ = .next t := by
  refine ⟨⟨?_, ?_, ?_, ?_, ?_, ?_⟩, ⟨?_, ?_, ?_, ?_, ?_, ?_, ?_, ?_, ?_⟩, _, rfl⟩
  · exact ⟨by decide, fun r h => by cases h⟩
  · exact ⟨by decide, fun id h => by cases h; decide, fun id q _ h => by cases h⟩
  · unfold Device.identifiesInCoupling; decide
  · unfold Device.evaluated; decide
  · exact ⟨by decide, by decide⟩
  · unfold Device.peersOk; decide
  · unfold Ltu.tableOk; decide
  · unfold Ftu.tableOk; decide
  · unfold Device.countersOk; decide
  · exact ⟨by decide, fun f h => by cases h⟩
  · unfold Cu.contestOk; decide
  · unfold Device.silentModes; decide
  · unfold Device.conflictSilent; decide
  · unfold Device.monitorOk; decide
  · unfold Device.aspectOk; decide

/-- R6 and Table 46: a plan for the coach, for any coach and for another one; with a coach present, and with none. -/
theorem witness_BlocksAndPhaseStaySettled :
    prepared.cu.plan = some plan90 ∧ prepared.identity = some coach ∧ prepared.cu.phase ≠ .departing
      ∧ plan90.coach = coach.number ∧ ({ plan90 with coach := 0 } : Plan).coach = 0
      ∧ ({ plan90 with coach := 3 } : Plan).coach ≠ 0 ∧ ({ plan90 with coach := 3 } : Plan).coach ≠ coach.number
      ∧ (True ↔ prepared.cu.phase ≠ .vacant ∧ prepared.cu.phase ≠ .departing)
      ∧ (False ↔ bay.cu.phase ≠ .vacant ∧ bay.cu.phase ≠ .departing)
      ∧ prepared.evalBlocks.heat = true ∧ bay.evalBlocks.heat = false := by decide

theorem witness_AlarmsStayLatched :
    (∃ t, exec .unplug (plugging false clearing) = .next t)
      ∧ (∃ t, exec (.acknowledge 2#8 21#8 [1#8]) (hearing bay) = .next t) := ⟨⟨_, rfl⟩, _, rfl⟩

/-- R13: an unplug changes PHASE content, an early NOTICE is asked for. -/
theorem witness_ChangesAreMarked :
    ∃ t, exec .unplug (st ((plugging false clearing).dev.onSc fun sc =>
        { sc with phase := ⟨.clean, false⟩, heat := ⟨.clean, false⟩, lamp := ⟨.clean, false⟩ })) = .next t
      ∧ t.dev.cu.phase ≠ clearing.cu.phase ∧ t.dev.sc.phase = ⟨.dirty, true⟩ ∧ t.dev.lu.unbegun = true :=
  ⟨_, rfl, by decide, by decide, by decide⟩

/-- R13: a failure judgement changes LAMP content. -/
theorem witness_ChangesAreMarked_lamp :
    ∃ t, exec (.measurementEnd 9800 4 24000)
        (st ((measuring 1 false).dev.onSc fun sc => { sc with lamp := ⟨.clean, false⟩ })) = .next t
      ∧ t.dev.sc.lamp = ⟨.dirty, true⟩ :=
  ⟨_, rfl, by decide⟩

/-- R13: a PLAN that changes M alone changes PHASE content. -/
theorem witness_ChangesAreMarked_plan :
    ∃ t, exec (.plan 2#8 21#8 [0x41#8, 0x11#8, 89#8, 0#8, 36#8, 0#8, 0#8, 0#8])
        (hearing (prepared.onSc fun sc => { sc with phase := ⟨.clean, false⟩ })) = .next t
      ∧ t.dev.cu.plan = some { plan90 with minutes := 89 } ∧ t.dev.sc.phase = ⟨.dirty, true⟩
      ∧ t.dev.lu.unbegun = true :=
  ⟨_, rfl, by decide, by decide, by decide⟩

/-- R13: the minute tick counts M down, which is no change; no content of another section differs either. -/
theorem witness_ChangesAreMarked_kept :
    let s := st (prepared.onSc fun sc => { sc with phase := ⟨.clean, false⟩, heat := ⟨.clean, true⟩, minuteTimer := some 9 });
    ∃ t, exec .minuteTick s = .next t ∧ s.dev.phaseSame .minuteTick t.dev ∧ s.dev.heatSame t.dev
      ∧ s.dev.windowKept t.dev ∧ s.dev.lampSame t.dev ∧ s.dev.faultSame t.dev ∧ t.dev.cu.phase.tornDown = false
      ∧ t.dev.cu.plan = some { plan90 with minutes := 89 } ∧ t.dev.sc.phase = ⟨.clean, false⟩
      ∧ t.dev.sc.heat = ⟨.clean, true⟩ := by
  refine ⟨_, rfl, ?_, ?_, ?_, ?_, ?_, by decide, by decide, by decide, by decide⟩
  · unfold Device.phaseSame; decide
  · unfold Device.heatSame; decide
  · unfold Device.windowKept; decide
  · unfold Device.lampSame; decide
  · unfold Device.faultSame; decide

theorem witness_EnergyOnlyGrows :
    (∃ t, exec (.claimTick 0) (st prepared) = .next t) ∧ (st prepared).dev.hcu.energy ≤ 4294967295 :=
  ⟨⟨_, rfl⟩, by decide⟩

end Sys2Proof.Tests
end

section
/-! SUPPORT. What the evaluations and the phase rules look at (`SameInputs`, `SameStanding`), that the phase rules come
to an end (`Device.movesLeft`), and that a following-up leaves an evaluated and settled bay (`close_settled`). -/

namespace Sys2Proof.Machine

/-! ### What the evaluations look at -/

/-- `e` gives match state, lockout and blocks all that `d` gives them, the phase and the match state held apart (R6, R57,
Table 46). -/
structure SameInputs (d e : Device) : Prop where
  conf : e.conf = d.conf
  mode : e.sc.mode = d.sc.mode
  identity : e.identity = d.identity
  plug : e.clc.plug = d.clc.plug
  link : e.clc.linkUp = d.clc.linkUp
  channels : e.ltu.channels.map Channel.lasting = d.ltu.channels.map Channel.lasting
  lampAge : e.ltu.ageTimer = d.ltu.ageTimer
  records : e.ftu.table.map FaultEntry.record = d.ftu.table.map FaultEntry.record
  dropped : e.ftu.blockingDropped = d.ftu.blockingDropped
  faultAge : e.ftu.ageTimer = d.ftu.ageTimer
  reached : e.hp.reached = d.hp.reached
  plan : e.cu.plan = d.cu.plan
  lanes : e.cu.holdLanes = d.cu.holdLanes
  peers : e.lu.peers = d.lu.peers

/-- `e` stands in the clearance as `d` does: the same inputs, and the same of what has been made of them. -/
structure SameStanding (d e : Device) : Prop extends SameInputs d e where
  phase : e.cu.phase = d.cu.phase
  blocks : e.cu.blocks = d.cu.blocks
  matchState : e.cu.matchState = d.cu.matchState
  spacing : e.cu.spacing = d.cu.spacing
  retryHold : e.cu.retryHold = d.cu.retryHold
  lockout : e.hcu.faultLockout = d.hcu.faultLockout

theorem FollowedCore.conf {d e : Device} (h : FollowedCore d e) : e.conf = d.conf := by
  unfold Device.conf
  rw [h.sc]

/-- What no following-up writes, and what it keeps of the coach, hold all inputs. -/
theorem SameInputs.of_stays {d e : Device} (h : FollowedCore d e) (k : Stays d e) : SameInputs d e where
  conf := h.conf
  mode := by rw [h.sc]
  identity := k.identity
  plug := h.plug.1
  link := by rw [k.clc]
  channels := k.channels
  lampAge := k.timers.2.1
  records := k.records
  dropped := k.ftu.1
  faultAge := k.ftu.2.2.2.2
  reached := by rw [k.hp.1]
  plan := h.plan.1
  lanes := h.plan.2
  peers := by rw [h.lu]

theorem SameStanding.refl (d : Device) : SameStanding d d :=
  ⟨⟨rfl, rfl, rfl, rfl, rfl, rfl, rfl, rfl, rfl, rfl, rfl, rfl, rfl, rfl⟩, rfl, rfl, rfl, rfl, rfl, rfl⟩

/-- A test of the lasting fields sees the same in two lists of channels that agree on them. -/
theorem any_lasting {l m : List Channel} (h : l.map Channel.lasting = m.map Channel.lasting) {p q : Channel → Bool}
    (f : Nat × LampStatus × Nat × Nat × Bool → Bool) (hp : ∀ c, p c = f c.lasting) (hq : ∀ c, q c = f c.lasting) :
    l.any p = m.any q := by
  have e : ∀ (l : List Channel) (p : Channel → Bool), (∀ c, p c = f c.lasting) → l.any p = (l.map Channel.lasting).any f := by
    intro l p hp
    rw [List.any_map]
    exact congrArg l.any (funext hp)
  rw [e l p hp, e m q hq, h]

/-- A test of the records sees the same in two tables that agree on them. -/
theorem any_record {l m : List FaultEntry} (h : l.map FaultEntry.record = m.map FaultEntry.record)
    (f : FaultRecord → Bool) : (l.any fun e => f e.record) = m.any fun e => f e.record := by
  have e : ∀ l : List FaultEntry, (l.any fun e => f e.record) = (l.map FaultEntry.record).any f := by
    intro l
    rw [List.any_map]
    rfl
  rw [e l, e m, h]

namespace SameInputs

variable {d e : Device} (h : SameInputs d e)

include h

theorem mandatory {c b : Channel} (n : c.num = b.num) : e.mandatory c = d.mandatory b := by
  unfold Device.mandatory Channel.ofCoach
  rw [h.identity, n]

theorem lampsPend : e.lampsPend = d.lampsPend := by
  unfold Device.lampsPend
  rw [h.lampAge]
  congr 1
  refine any_lasting h.channels
    (fun x => x.2.1 != .off && d.mandatory (Channel.off x.1) && x.2.1.unknown) ?_ ?_
  · intro c
    rw [h.mandatory (c := c) (b := Channel.off c.num) rfl]
    rfl
  · intro c
    rfl

theorem lampsFail : e.lampsFail = d.lampsFail := by
  unfold Device.lampsFail
  refine any_lasting h.channels
    (fun x => x.2.1 != .off && d.mandatory (Channel.off x.1) && x.2.1.failed && !x.2.2.2.2) ?_ ?_
  · intro c
    rw [h.mandatory (c := c) (b := Channel.off c.num) rfl]
    rfl
  · intro c
    rfl

theorem signalFails : e.ltu.signalFails = d.ltu.signalFails :=
  any_lasting h.channels (fun x => (x.1 == 17 || x.1 == 19) && x.2.1.failed) (fun _ => rfl) fun _ => rfl

theorem faultStops : e.faultStops = d.faultStops := by
  unfold Device.faultStops
  rw [h.conf, h.dropped, any_record h.records fun r => r.blocking d.conf.restrictive]

theorem heatLockout : e.ftu.heatLockout = d.ftu.heatLockout :=
  any_record h.records fun r => r.active && r.cls == .heater && decide (2 ≤ r.severity)

theorem tooEarly : e.tooEarly = d.tooEarly := by
  unfold Device.tooEarly
  rw [h.plan, h.conf]

/-- The match state looks at the phase for DEPARTING alone (R6). -/
theorem evalMatch (p : e.cu.phase = .departing ↔ d.cu.phase = .departing) : e.evalMatch = d.evalMatch := by
  unfold Device.evalMatch
  rw [h.plan, h.identity]
  simp only [p]

/-- The blocks look at the phase for the presence of a coach alone (Table 46). -/
theorem evalBlocks (p : e.cu.phase.withCoach = d.cu.phase.withCoach) (m : e.cu.matchState = d.cu.matchState) :
    e.evalBlocks = d.evalBlocks := by
  have l : e.laneHolds = d.laneHolds := by
    unfold Device.laneHolds Device.laneWaived
    rw [h.conf, h.plan, h.peers]
  have t : e.heatHolds = d.heatHolds := by
    unfold Device.heatHolds
    rw [h.plan, h.reached]
  have o : e.holdHolds = d.holdHolds := by
    unfold Device.holdHolds
    rw [h.conf, h.lanes]
  unfold Device.evalBlocks
  rw [p, m, t, h.plan, h.lampsPend, h.lampsFail, h.signalFails, h.faultAge, h.faultStops, h.link, l, o, h.mode]

end SameInputs

/-! ### Evaluated and settled stations -/

theorem tooEarly_eq_false_iff (d : Device) :
    d.tooEarly = false ↔ ∀ plan, d.cu.plan = some plan → plan.minutes ≤ d.conf.releaseLead := by
  unfold Device.tooEarly
  cases d.cu.plan <;> simp

/-- A bay in READY is eligible to clear (R126). -/
theorem eligible_iff (d : Device) :
    d.eligible = true ↔ d.cu.blocks.departurePath = false ∧ d.cu.spacing = none ∧ d.cu.retryHold = false
      ∧ ∃ plan, d.cu.plan = some plan ∧ plan.minutes ≤ d.conf.releaseLead := by
  unfold Device.eligible Device.tooEarly
  cases d.cu.plan with
  | none => simp
  | some plan => simp [and_comm, and_left_comm]

theorem noPlan_of_preparation {b : Blocks} (h : b.preparation = false) : b.noPlan = false := by
  simp only [Blocks.preparation, Bool.or_eq_false_iff] at h
  tauto

theorem noPlan_of_revoking {b : Blocks} (h : b.revoking = false) : b.noPlan = false := by
  simp only [Blocks.revoking, Bool.or_eq_false_iff] at h
  tauto

/-- A revoking block is a preparation block or a departure-path block (Table 46). -/
theorem revoking_le {b : Blocks} (h : b.revoking = true) : b.preparation = true ∨ b.departurePath = true := by
  simp only [Blocks.revoking, Blocks.preparation, Blocks.departurePath, Bool.or_eq_true] at h ⊢
  tauto

/-- Without preparation and departure-path blocks no revoking block stands (Table 46). -/
theorem revoking_eq_false {b : Blocks} (p : b.preparation = false) (q : b.departurePath = false) : b.revoking = false := by
  cases r : b.revoking with
  | false => rfl
  | true => rcases revoking_le r with k | k <;> simp_all

/-- A bay in which no phase rule applies is settled. -/
theorem phaseSettled_of_nextPhase {d : Device} (h : d.nextPhase = none) : d.phaseSettled := by
  unfold Device.nextPhase at h
  unfold Device.phaseSettled
  cases p : d.cu.phase <;> rw [p] at h <;> dsimp only at h ⊢
  case vacant | departing =>
    intro k
    rw [if_pos (by simp [Device.coupleNow, p, k])] at h
    cases h
  case coupling =>
    cases i : d.identity with
    | none => rfl
    | some id =>
      rw [i] at h
      simp only [Option.isSome_some, if_true] at h
      split at h <;> cases h
  case coupled =>
    intro m
    rw [if_pos m] at h
    cases h
  case preparing =>
    split at h
    · cases h
    · next n =>
      split at h
      · next k => exact ⟨k, by simpa using n⟩
      · cases h
  case ready =>
    split at h
    · cases h
    · split at h
      · cases h
      · next k =>
        split at h
        · split at h <;> cases h
        · next l => exact ⟨by simpa using k, fun m => l ((eligible_iff d).2 m)⟩
  case clearing | cleared =>
    split at h
    · cases h
    · split at h
      · cases h
      · next k =>
        simp only [Bool.or_eq_true, not_or, Bool.not_eq_true] at k
        exact ⟨k.1, (tooEarly_eq_false_iff d).1 k.2⟩

namespace SameStanding

variable {d e : Device} (h : SameStanding d e)

include h

theorem evaluated (k : d.evaluated) : e.evaluated := by
  obtain ⟨m, l, b⟩ := k
  refine ⟨?_, ?_, ?_⟩
  · rw [h.matchState, m, h.evalMatch (by rw [h.phase])]
  · rw [h.lockout, l, h.heatLockout]
  · rw [h.blocks, b, h.evalBlocks (by rw [h.phase]) h.matchState]

theorem phaseSettled (k : d.phaseSettled) : e.phaseSettled := by
  unfold Device.phaseSettled at k ⊢
  rw [h.phase, h.plug, h.mode, h.identity, h.matchState, h.blocks, h.spacing, h.retryHold, h.plan, h.conf]
  exact k

end SameStanding

/-! ### The phase rules come to an end (R120) -/

/-- The moves that the phase rules can still make in an evaluated bay with no coupling to begin. -/
def Device.movesLeft (d : Device) : Nat :=
  match d.cu.phase with
  | .vacant | .departing => 0
  | .coupling => 5
  | .coupled => if d.cu.matchState = .matched then 4 else 0
  | .preparing => if d.cu.blocks.noPlan then 1 else if d.cu.blocks.preparation then 0 else 3
  | .ready =>
    if d.cu.blocks.preparation then 1 else if d.cu.blocks.departurePath || d.tooEarly then 0 else 2
  | .clearing | .cleared => if d.cu.blocks.revoking || d.tooEarly then 1 else 0

/-- The evaluations leave what they have come to. -/
theorem refresh_evaluated (d : Device) : d.refresh.evaluated := ⟨rfl, rfl, rfl⟩

theorem movesLeft_le (d : Device) : d.movesLeft ≤ 5 := by
  unfold Device.movesLeft
  repeat' split
  all_goals decide

/-- A move keeps what the evaluations look at, and with it the blocks and the match state. -/
theorem move_keeps {d : Device} {new : Phase} (e : d.evaluated) (i : new.identified = true)
    (w : d.cu.phase.withCoach = true) :
    (d.setPhase new).refresh.cu.phase = new ∧ (d.setPhase new).refresh.cu.blocks = d.cu.blocks
      ∧ (d.setPhase new).refresh.cu.matchState = d.cu.matchState
      ∧ (d.setPhase new).refresh.tooEarly = d.tooEarly := by
  have nd : new ≠ .departing := by rintro rfl; cases i
  have nv : new.withCoach = true := by revert i; cases new <;> decide
  have od : d.cu.phase ≠ .departing := by intro o; rw [o] at w; cases w
  have k : SameInputs d (d.setPhase new).refresh :=
    .of_stays ((FollowedCore.setPhase d nd).trans (FollowedCore.refresh _)) ((Stays.setPhase d i w).trans (Stays.refresh _))
  have p : (d.setPhase new).refresh.cu.phase = new := Stays.setPhase_phase d new
  obtain ⟨m, -, b⟩ := e
  obtain ⟨m', -, b'⟩ := refresh_evaluated (d.setPhase new)
  have q : (d.setPhase new).refresh.cu.matchState = d.cu.matchState := by
    rw [m', m, k.evalMatch (by rw [p]; simp [nd, od])]
  exact ⟨p, by rw [b', b, k.evalBlocks (by rw [p, nv, w]) q], q, k.tooEarly⟩

/-- An evaluated bay without a plan matches nothing. -/
theorem not_matched_of_noPlan {d : Device} (e : d.evaluated) (n : d.cu.blocks.noPlan = true) :
    d.cu.matchState ≠ .matched := by
  obtain ⟨m, -, b⟩ := e
  rw [b] at n
  have p : d.cu.plan = none := by
    simp only [Device.evalBlocks, Bool.and_eq_true, Option.isNone_iff_eq_none] at n
    exact n.2
  rw [m]
  unfold Device.evalMatch
  rw [p]
  simp

/-- Every move leaves fewer to make. -/
theorem movesLeft_lt {d : Device} {new : Phase} (e : d.evaluated) (c : d.coupleNow = false)
    (h : d.nextPhase = some new) : (d.setPhase new).refresh.movesLeft < d.movesLeft := by
  obtain ⟨i, w⟩ := Stays.nextPhase_identified d h c
  obtain ⟨p, b, m, t⟩ := move_keeps e i w
  have np := not_matched_of_noPlan e
  have pp : d.cu.blocks.noPlan = true → d.cu.blocks.preparation = true := by simp [Blocks.preparation]; tauto
  have nr : d.cu.blocks.noPlan = true → d.cu.blocks.revoking = true := by simp [Blocks.revoking]; tauto
  have rp := revoking_le (b := d.cu.blocks)
  have el : d.eligible = true → d.cu.blocks.departurePath = false ∧ d.tooEarly = false := by
    intro k
    simp only [Device.eligible, Bool.and_eq_true, Bool.not_eq_true'] at k
    exact ⟨k.1.1.2, k.1.1.1.2⟩
  unfold Device.movesLeft
  rw [p, b, m, t]
  unfold Device.nextPhase Device.fallBack at h
  cases q : d.cu.phase <;> rw [q] at h <;> dsimp only at h ⊢
  case vacant | departing => rw [q] at w; cases w
  all_goals grind

/-- With fuel for the moves that are left the phase rules end evaluated and with none to apply. -/
theorem settlePhases_ends {d : Device} (n : Nat) (c : d.coupleNow = false) (h : d.refresh.movesLeft ≤ n) :
    (d.settlePhases n).evaluated ∧ (d.settlePhases n).nextPhase = none := by
  induction n generalizing d with
  | zero =>
    refine ⟨refresh_evaluated d, ?_⟩
    cases k : d.refresh.nextPhase with
    | none => exact k
    | some new =>
      have := movesLeft_lt (refresh_evaluated d) c k
      omega
  | succ n ih =>
    unfold Device.settlePhases
    split
    · next k => exact ⟨refresh_evaluated d, k⟩
    · next new k =>
      have l := movesLeft_lt (refresh_evaluated d) c k
      exact ih (Stays.not_coupleNow _ (Stays.nextPhase_identified _ k c).1) (by omega)

/-- The fuel of a following-up is enough (R120). -/
theorem settlePhases_settled (d : Device) :
    (d.settlePhases 8).evaluated ∧ (d.settlePhases 8).phaseSettled := by
  cases c : d.coupleNow with
  | true =>
    rw [JustCoupling.settlePhases c 6]
    exact ⟨refresh_evaluated _, phaseSettled_of_nextPhase (JustCoupling.enter d.refresh).nextPhase_none⟩
  | false =>
    obtain ⟨e, n⟩ := settlePhases_ends 8 c ((movesLeft_le d.refresh).trans (by decide))
    exact ⟨e, phaseSettled_of_nextPhase n⟩

/-! ### What comes after the phase rules -/

/-- What a following-up does once the phase rules have ended leaves their work as it stands. -/
theorem standing_close (before d : Device) : SameStanding (d.settlePhases 8) (close before d) := by
  have s : Stays (d.settlePhases 8) (close before d) :=
    (Stays.afterPhases _).trans ((Stays.markChanges d.settle before).trans (Stays.seekLine _))
  have f : FollowedCore (d.settlePhases 8) (close before d) :=
    ((FollowedCore.forceClaim _).trans ((FollowedCore.capStage _).trans ((FollowedCore.runLamps _).trans
      ((FollowedCore.beginReadIfDue _).trans ((FollowedCore.serve _).trans ((FollowedCore.watchPower _).trans
        (FollowedCore.showAspect _))))))).trans
    ((FollowedCore.markChanges d.settle before).trans (FollowedCore.seekLine _))
  have t := close_tail d before
  have c := t.cu
  rw [lampsDone_eq] at c
  have l : (close before d).hcu.faultLockout = (d.settlePhases 8).hcu.faultLockout := by
    rw [t.hcu]
    unfold Device.watchPower
    rw [followMonitor_eq, releasePull_eq, lampsDone_eq]
  exact { SameInputs.of_stays f s with
    phase := by rw [c], blocks := by rw [c], matchState := by rw [c], spacing := by rw [c], retryHold := by rw [c]
    lockout := l }

/-- A following-up leaves the station evaluated and the bay settled, whatever it met (R6, R57, R120). -/
theorem close_settled (before d : Device) : (close before d).evaluated ∧ (close before d).phaseSettled :=
  have k := standing_close before d
  have ⟨e, p⟩ := settlePhases_settled d
  ⟨k.evaluated e, k.phaseSettled p⟩

end Sys2Proof.Machine
end

section
/-! SUPPORT. What a command comes to (`exec_ends`): a reset, a device in which nothing that the evaluations look at has
changed, or a following-up; and that no command but an ACKNOWLEDGE clears an alarm latch on the way (`Latches`). -/

namespace Sys2Proof.Machine

/-! ### Latches stay set (R15) -/

/-- Every latch set in `a` is set in `b`. -/
def Latches (a b : Device) : Prop := a.sc.alarms.within b.sc.alarms

namespace Latches

theorem of_alarms {a b : Device} (h : b.sc.alarms = a.sc.alarms) : Latches a b := by
  unfold Latches
  rw [h]
  exact ⟨id, id, id, id, id, id, id, id⟩

theorem refl (d : Device) : Latches d d := of_alarms rfl

theorem trans {a b c : Device} (h : Latches a b) (k : Latches b c) : Latches a c := by
  obtain ⟨h1, h2, h3, h4, h5, h6, h7, h8⟩ := h
  obtain ⟨k1, k2, k3, k4, k5, k6, k7, k8⟩ := k
  exact ⟨k1 ∘ h1, k2 ∘ h2, k3 ∘ h3, k4 ∘ h4, k5 ∘ h5, k6 ∘ h6, k7 ∘ h7, k8 ∘ h8⟩

theorem after {a b c : Device} (k : Latches b c) (h : b.sc.alarms = a.sc.alarms) : Latches a c := (of_alarms h).trans k

/-- No following-up writes a latch. -/
theorem of_core {a b : Device} (h : FollowedCore a b) : Latches a b := of_alarms (by rw [h.sc])

theorem ite {p : Prop} [Decidable p] {a b c : Device} (h : p → Latches a b) (k : ¬ p → Latches a c) :
    Latches a (if p then b else c) := by
  split
  · exact h ‹_›
  · exact k ‹_›

variable (d : Device)

theorem setPhase (new : Phase) : Latches d (d.setPhase new) := by
  refine of_alarms ?_
  unfold Device.setPhase Device.dropIdentity
  cases new <;> rfl

theorem requestRead : Latches d d.requestRead := by
  unfold Device.requestRead
  split <;> exact of_alarms rfl

/-! ### The Coach Link and the fault reading -/

theorem exchangeFailed (request : Request) : Latches d (d.exchangeFailed request) := by
  have l : Latches d d.latchLinkLost := by
    unfold Device.latchLinkLost
    split
    · exact ⟨id, id, id, fun _ => rfl, id, id, id, id⟩
    · exact refl d
  have b : ∀ e : Device, Latches e e.takeBackRead := by
    intro e
    unfold Device.takeBackRead
    split <;> exact of_alarms rfl
  have f : ∀ e : Device, Latches e (e.handFailure request) := by
    intro e
    cases request <;> exact of_alarms rfl
  exact l.trans (((b _).trans (f _)).after rfl)

theorem attemptFailed (x : Exchange) (quiet : Bool) : Latches d (d.attemptFailed x quiet) := by
  unfold Device.attemptFailed
  split
  · exact exchangeFailed d _
  · split <;> exact of_alarms rfl

theorem frameEnds (quiet : Bool) : Latches d (d.frameEnds quiet) := by
  unfold Device.frameEnds
  split
  · exact refl d
  · split
    · exact attemptFailed d _ _
    · unfold Device.lateFrameEnds
      split <;> exact of_alarms rfl
    · exact refl d
    · exact refl d
    · exact refl d

theorem takeReply (kind : ReplyKind) (ok : Bool) {result : Request → Device → Device}
    (h : ∀ r e, Latches e (result r e)) : Latches d (d.takeReply kind ok result) := by
  unfold Device.takeReply
  split
  · exact refl d
  · split
    · exact (h _ _).after rfl
    · exact frameEnds d _

theorem compareCount (count : Nat) : Latches d (d.compareCount count) := by
  unfold Device.compareCount
  split
  · exact refl d
  · split
    · exact refl d
    · exact (requestRead _).after rfl

theorem readOpened (available : Nat) : Latches d (d.readOpened available) := by
  unfold Device.readOpened
  split
  · exact refl d
  · dsimp only
    split
    · exact (of_core (FollowedCore.offerRead _ _)).after rfl
    · exact of_alarms rfl

theorem offerAgain : Latches d d.offerAgain := by
  unfold Device.offerAgain
  split
  · exact refl d
  · exact of_core (FollowedCore.offerRead _ _)

theorem countBusy {next : Device → Device} (h : ∀ e, Latches e (next e)) : Latches d (d.countBusy next) := by
  unfold Device.countBusy
  dsimp only
  split
  · exact of_alarms rfl
  · exact (h _).after rfl

theorem readBusy : Latches d d.readBusy := by
  unfold Device.readBusy
  split
  · exact countBusy d fun e => of_alarms rfl
  · exact refl d

theorem mergeRecords (records : List FaultRecord) : Latches d (records.foldl Device.mergeRecord d) := by
  induction records generalizing d with
  | nil => exact refl d
  | cons r rest ih =>
    have m : Latches d (d.mergeRecord r) :=
      (of_core (FollowedCore.close d (d.onFtu fun ftu => ftu.merge d.conf.restrictive r))).after rfl
    exact m.trans (ih _)

theorem afterFrame (endFlag : Bool) : Latches d (d.afterFrame endFlag) := by
  unfold Device.afterFrame
  split
  · exact refl d
  · split
    · exact of_alarms rfl
    · split
      · exact of_core (FollowedCore.offerRead _ _)
      · split
        · exact (of_core (FollowedCore.offerRead _ _)).after rfl
        · exact of_alarms rfl

theorem readRecords (payload : List Byte) : Latches d (d.readRecords payload) := by
  unfold Device.readRecords
  split
  · exact refl d
  · split
    · unfold Device.acceptFrame
      dsimp only
      exact Latches.trans
        (b := (recordsOf payload).foldl Device.mergeRecord (d.onFtu fun ftu => { ftu with busyCount := 0 }))
        ((mergeRecords _ _).after rfl) ((afterFrame _ _).after rfl)
    · exact countBusy d offerAgain

theorem unplug : Latches d d.unplugLink.unplugPhase := by
  have l : Latches d d.unplugLink := by
    unfold Device.unplugLink
    dsimp only
    split <;> exact of_alarms rfl
  refine l.trans ?_
  generalize d.unplugLink = e
  have p : Latches e (e.onAlarms fun a => { a with pullout := true }) := ⟨fun _ => rfl, id, id, id, id, id, id, id⟩
  unfold Device.unplugPhase
  split
  · exact setPhase e _
  · exact setPhase e _
  · exact p.trans (setPhase _ _)
  · exact p.trans (setPhase _ _)
  · exact p.trans (setPhase _ _)
  · exact setPhase e _
  · exact refl e
  · exact refl e

/-! ### The lamp check and the heater -/

theorem startRetest : Latches d d.startRetest := by
  unfold Device.startRetest
  split <;> exact of_alarms rfl

theorem endMeasurement (num millivolts milliamps supply : Nat) :
    Latches d (d.endMeasurement num millivolts milliamps supply) := by
  unfold Device.endMeasurement
  split
  · exact of_core (FollowedCore.dropPass d)
  · generalize d.judge num millivolts milliamps supply = status
    have j : Latches d (d.enterJudgement num status millivolts milliamps) := by
      have r : Latches d (d.enterRecord num status millivolts milliamps) :=
        (of_core (FollowedCore.markLamp d _)).after rfl
      exact r.trans ((ite (fun _ => startRetest _) fun _ => refl _).trans
        (ite (fun _ => ⟨id, id, id, id, fun _ => rfl, id, id, id⟩) fun _ => refl _))
    refine j.trans ?_
    generalize d.enterJudgement num status millivolts milliamps = e
    unfold Device.nextMeasurement
    split
    · exact refl e
    · split
      · unfold Device.completePass
        dsimp only
        split
        · exact (of_core (FollowedCore.dropPass e)).trans (of_alarms rfl)
        · exact of_core (FollowedCore.dropPass e)
      · exact (of_core (FollowedCore.beginMeasurement _)).after rfl

theorem beginPull (pull : ShedPull) : Latches d (d.beginPull pull) := of_alarms rfl

theorem contactorFails : Latches d d.contactorFails := ⟨id, id, fun _ => rfl, id, id, id, id, id⟩

theorem endPull : Latches d d.endPull := by
  unfold Device.endPull
  split
  · exact (contactorFails d).trans (of_alarms rfl)
  · exact of_alarms rfl

theorem overcurrent : Latches d d.overcurrent := ⟨id, fun _ => rfl, id, id, id, id, id, id⟩

theorem claimTick (probe : Int) : Latches d (d.claimTick probe) := by
  have r : Latches d d.countRejoin := by
    unfold Device.countRejoin
    repeat' split
    all_goals exact of_alarms rfl
  have p : ∀ e : Device, Latches e (e.readProbe probe) := by
    intro e
    unfold Device.readProbe
    split
    · exact of_alarms rfl
    · exact ⟨id, id, id, id, id, id, id, fun _ => rfl⟩
  have v : ∀ e : Device, Latches e e.evalReached := by
    intro e
    unfold Device.evalReached
    split <;> exact of_alarms rfl
  have m : ∀ e : Device, Latches e e.markFirstRun := by
    intro e
    unfold Device.markFirstRun
    split <;> exact of_alarms rfl
  have c : ∀ (e : Device) (s : Nat), Latches e (e.countEnergy s) := by
    intro e s
    unfold Device.countEnergy
    split <;> exact of_alarms rfl
  unfold Device.claimTick
  dsimp only
  refine r.trans (Latches.trans (b := d.countRejoin.hpTick probe) ?_ ?_)
  · exact (p _).trans (((v _).trans (m _)).after rfl)
  · exact ((c _ _).trans ((of_core (FollowedCore.requestNotice _)).trans (of_alarms rfl))).after rfl

/-! ### The Depot Line -/

theorem loseContest : Latches d d.loseContest := (setPhase d _).trans (of_alarms rfl)

theorem noticeDropped (snap : Snapshot) : Latches d (d.noticeDropped snap) := by
  unfold Device.noticeDropped
  split
  · exact loseContest d
  · exact refl d

theorem noticeShown (snap : Snapshot) : Latches d (d.noticeShown snap) := by
  unfold Device.noticeShown
  repeat' split
  all_goals exact of_alarms rfl

theorem announce (claim : Nat) : Latches d (d.announce claim) := by
  unfold Device.announce Device.applyRaise
  repeat' split
  all_goals exact of_alarms rfl

theorem offerReply (n : Nat) : Latches d (d.offerReply n) := by
  induction n generalizing d with
  | zero => exact refl d
  | succ n ih =>
    unfold Device.offerReply
    repeat' split
    · exact refl d
    · exact refl d
    · exact refl d
    · exact of_alarms rfl
    · exact (ih _).after rfl

theorem listLeaves : Latches d d.listLeaves := (offerReply _ 3).after rfl

theorem startReply (subject : Subject) (requester start : Nat) : Latches d (d.startReply subject requester start) := by
  unfold Device.startReply
  split
  · exact (offerReply _ 3).after rfl
  · exact of_alarms rfl

theorem failAttempt (flight : Flight) : Latches d (d.failAttempt flight) := by
  unfold Device.failAttempt
  split
  · exact of_alarms rfl
  · refine (Latches.of_alarms (b := d.endFlight.countDropped) rfl).trans ?_
    generalize d.endFlight.countDropped = e
    unfold Device.handDrop
    split
    · exact noticeDropped e _
    · exact listLeaves e

theorem contest (entry : PeerEntry) : Latches d (d.contest entry) := by
  have p : ∀ e : Device, Latches e e.peerCleared := by
    intro e
    unfold Device.peerCleared
    dsimp only
    split
    · exact (loseContest _).after rfl
    · exact of_alarms rfl
  exact (ite (fun _ => p d) fun _ => refl d).trans (ite (fun _ => loseContest _) fun _ => refl _)

theorem numberConflict : Latches d d.numberConflict := by
  have l : ∀ e : Device, Latches e e.latchConflict := fun e => ⟨id, id, id, id, id, fun _ => rfl, id, id⟩
  unfold Device.numberConflict
  split
  · refine (Latches.of_alarms (b := d.lineEventNow) rfl).trans ?_
    generalize d.lineEventNow = e
    have s : Latches e e.silence := by
      unfold Device.silence
      dsimp only
      split
      · exact (noticeDropped _ _).after rfl
      · exact of_alarms rfl
    exact s.trans ((l _).trans (of_alarms rfl))
  · exact (l _).after rfl

theorem lineActivity : Latches d d.lineActivity := by
  unfold Device.lineActivity
  dsimp only
  split <;> exact of_alarms rfl

theorem takeNotice (station : Nat) (payload : List Byte) : Latches d (d.takeNotice station payload) := by
  unfold Device.takeNotice
  split
  · exact ((of_core (FollowedCore.close d _)).trans (contest _ _)).after rfl
  · exact of_alarms rfl

theorem storePlan (plan : Plan) : Latches d (d.storePlan plan) := by
  unfold Device.storePlan
  dsimp only
  split
  · exact of_alarms rfl
  · exact (of_core (FollowedCore.touchPhase _)).after rfl

theorem cancelPlan : Latches d d.cancelPlan := by
  unfold Device.cancelPlan
  split
  · exact refl d
  · exact (of_core (FollowedCore.touchPhase _)).after rfl

theorem toListen : Latches d d.toListen := by
  unfold Device.toListen
  dsimp only
  split <;> exact of_alarms rfl

end Latches

end Sys2Proof.Machine
end

section
/-! SUPPORT. What a command comes to (`exec_ends`). -/

namespace Sys2Proof.Machine

/-! ### A device that stands as it stood -/

/-- `e` stands in the clearance as `d` does, with the same alarm latches. -/
structure Unmoved (d e : Device) : Prop extends SameStanding d e where
  alarms : e.sc.alarms = d.sc.alarms

namespace Unmoved

theorem refl (d : Device) : Unmoved d d := ⟨SameStanding.refl d, rfl⟩

theorem trans {a b c : Device} (h : Unmoved a b) (k : Unmoved b c) : Unmoved a c where
  conf := k.conf.trans h.conf
  mode := k.mode.trans h.mode
  identity := k.identity.trans h.identity
  plug := k.plug.trans h.plug
  link := k.link.trans h.link
  channels := k.channels.trans h.channels
  lampAge := k.lampAge.trans h.lampAge
  records := k.records.trans h.records
  dropped := k.dropped.trans h.dropped
  faultAge := k.faultAge.trans h.faultAge
  reached := k.reached.trans h.reached
  plan := k.plan.trans h.plan
  lanes := k.lanes.trans h.lanes
  peers := k.peers.trans h.peers
  phase := k.phase.trans h.phase
  blocks := k.blocks.trans h.blocks
  matchState := k.matchState.trans h.matchState
  spacing := k.spacing.trans h.spacing
  retryHold := k.retryHold.trans h.retryHold
  lockout := k.lockout.trans h.lockout
  alarms := k.alarms.trans h.alarms

/-- A section mark, an early NOTICE request and a backoff move nothing. -/
theorem of_marks {d e : Device} (h : MarksOnly d e) : Unmoved d e := by
  rw [h]
  exact { refl d with }

variable (d : Device)

theorem reach (t : Nat) : Unmoved d (d.reach t) := { refl d with }

theorem onPins (f : Pins → Pins) : Unmoved d (d.onPins f) := { refl d with }

theorem onClc {f : Clc → Clc} (h : (f d.clc).plug = d.clc.plug ∧ (f d.clc).linkUp = d.clc.linkUp) :
    Unmoved d (d.onClc f) := { refl d with plug := h.1, link := h.2 }

theorem onLu {f : Lu → Lu} (h : (f d.lu).peers = d.lu.peers) : Unmoved d (d.onLu f) := { refl d with peers := h }

theorem onHcu {f : Hcu → Hcu} (h : (f d.hcu).faultLockout = d.hcu.faultLockout) : Unmoved d (d.onHcu f) :=
  { refl d with lockout := h }

theorem seekLine : Unmoved d d.seekLine := of_marks (MarksOnly.seekLine d)

theorem requestNotice : Unmoved d d.requestNotice := by
  unfold Device.requestNotice
  split
  · exact onLu d rfl
  · exact refl d

theorem beginNotice : Unmoved d d.beginNotice := { refl d with }

theorem chooseFrame : Unmoved d d.chooseFrame := by
  unfold Device.chooseFrame
  repeat' split
  · exact refl d
  · exact beginNotice d
  · exact refl d
  · exact onLu d rfl

theorem beginAttempt : Unmoved d d.beginAttempt := by
  unfold Device.beginAttempt
  split <;> exact onLu d rfl

theorem startBit : Unmoved d d.startBit := by
  unfold Device.startBit
  split
  · exact (onLu d rfl).trans (onLu _ rfl)
  · exact onLu d rfl

theorem discardFrame (atCrc : Bool) : Unmoved d (d.discardFrame atCrc) := { refl d with }

theorem followPresence : Unmoved d d.followPresence := by
  unfold Device.followPresence
  split
  · exact { refl d with }
  · exact refl d

theorem leadHeard (x : Exchange) : Unmoved d (d.leadHeard x) := by
  unfold Device.leadHeard
  split
  · exact onClc d ⟨rfl, rfl⟩
  · exact onClc d ⟨rfl, rfl⟩
  · exact refl d
  · exact refl d
  · exact refl d

end Unmoved

/-! ### What a command comes to -/

/-- The latches that a command names to be cleared (R16). -/
def acknowledged : Instr → Alarms
  | .acknowledge _ _ payload => readAlarms payload
  | _ => .clear

/-- The device `e` that a command `c` leaves of `d`: every block reset; nothing moved; or what a following-up leaves, the
section marks and the access to the line apart, the command's own effect having cleared no latch but those it names. -/
inductive Ends (c : Instr) (d : Device) : Device → Prop
  | reset (h : c = .powerOn ∨ c = .resetAssert ∨ c = .resetRelease) (clock : Nat) (pins : Pins) (start : StartStep)
      (plug shed : Timer) : Ends c d (Device.resetBlocks clock pins start plug shed)
  | kept {e : Device} (h : Unmoved d e) : Ends c d e
  | closed {before after e : Device} (h : (d.sc.alarms.without (acknowledged c)).within after.sc.alarms)
      (k : Unmoved (close before after) e) : Ends c d e

theorem without_clear (a : Alarms) : a.without .clear = a := by
  simp [Alarms.without, Alarms.clear]

theorem without_within (a named : Alarms) : (a.without named).within a := by
  simp +contextual [Alarms.within, Alarms.without]

namespace Ends

variable {c : Instr} {d : Device}

/-- The device of a meaning that answers `t`. -/
theorem of_did {s t : State} {f : Device → Device} (h : s.did f = .next t) (k : Ends c s.dev (f s.dev)) :
    Ends c s.dev t.dev := by
  cases h
  exact k

theorem same : Ends c d d := kept (Unmoved.refl d)

theorem ite {p : Prop} [Decidable p] {a b : Device} (h : p → Ends c d a) (k : ¬ p → Ends c d b) :
    Ends c d (if p then a else b) := by
  split
  · exact h ‹_›
  · exact k ‹_›

theorem expiry (timer : Timer) {f : Device → Device} (h : ∀ t, Ends c d (f (d.reach t))) :
    Ends c d (d.onExpiry timer f) := by
  cases timer with
  | none => exact same
  | some t => exact h t

/-- What clears no latch clears none but those named. -/
theorem named_within {named : Alarms} {e : Device} (h : Latches d e) :
    (d.sc.alarms.without named).within e.sc.alarms := by
  have w : Latches { d with sc := { d.sc with alarms := d.sc.alarms.without named } } d := without_within _ _
  exact w.trans h

/-- A following-up of an effect that clears no latch. -/
theorem close {before after : Device} (h : Latches d after) : Ends c d (close before after) :=
  closed (named_within h) (Unmoved.refl _)

/-- A following-up of an effect that writes no latch. -/
theorem close_same {before after : Device} (h : after.sc.alarms = d.sc.alarms) : Ends c d (Machine.close before after) :=
  close (.of_alarms h)

theorem listenEntry {before after : Device} (h : Latches d after) : Ends c d (before.listenEntry after) := by
  have u : ∀ e : Device, Unmoved e ((e.onSc fun sc => { sc with phase := ⟨.initial, false⟩ }).requestNotice.seekLine) := by
    intro e
    have p : Unmoved e (e.onSc fun sc => { sc with phase := ⟨.initial, false⟩ }) := { Unmoved.refl e with }
    exact p.trans ((Unmoved.requestNotice _).trans (Unmoved.seekLine _))
  exact closed (named_within (h.trans (Latches.toListen after))) (u _)

/-- A frame of another node: discarded, a number conflict, or used. -/
theorem takeFrame (sender dest : Byte) (ok : Bool) {use : Device → Device}
    (h : ∀ e, Latches d e → (d.sc.alarms.without (acknowledged c)).within (use e).sc.alarms) :
    Ends c d (d.takeFrame sender dest ok use) := by
  unfold Device.takeFrame
  refine ite (fun _ => kept (Unmoved.discardFrame d _)) fun _ => ite (fun _ => ?_) fun _ => ?_
  · exact close ((Latches.numberConflict _).after rfl)
  · exact closed (h (d.leaveFrame .idle).lineActivity ((Latches.lineActivity _).after rfl)) (Unmoved.refl _)

theorem receiveFrame (sender dest : Byte) (ok : Bool) {use : Device → Device}
    (h : ∀ e, Latches d e → (d.sc.alarms.without (acknowledged c)).within (use e).sc.alarms) :
    Ends c d (d.receiveFrame sender dest ok use) :=
  ite (fun _ => takeFrame sender dest ok h) fun _ => same

/-- A use that clears no latch. -/
theorem used {use : Device → Device} (h : ∀ e, Latches e (use e)) (e : Device) (k : Latches d e) :
    (d.sc.alarms.without (acknowledged c)).within (use e).sc.alarms :=
  named_within (k.trans (h e))

/-- A dispatch frame clears no latch but those that its acceptance clears. -/
theorem dispatched (sender dest : Nat) (broadcast : Bool) {accept : Device → Device}
    (h : ∀ e, Latches d e → (d.sc.alarms.without (acknowledged c)).within (accept e).sc.alarms) (e : Device)
    (k : Latches d e) :
    (d.sc.alarms.without (acknowledged c)).within (e.takeDispatch sender dest broadcast accept).sc.alarms := by
  have u := used (c := c) Latches.refl e k
  unfold Device.takeDispatch
  repeat' split
  · exact u
  · exact u
  · exact u
  · exact h e k

theorem dispatchFrame (sender dest : Byte) (ok broadcast : Bool) {accept : Device → Device}
    (h : ∀ e, Latches d e → (d.sc.alarms.without (acknowledged c)).within (accept e).sc.alarms) :
    Ends c d (d.dispatchFrame sender dest ok broadcast accept) :=
  receiveFrame sender dest ok (dispatched _ _ _ h)

theorem queryFrame (sender dest : Byte) {accept : Device → Device} (h : ∀ e, Latches e (accept e)) :
    Ends c d (d.queryFrame sender dest accept) :=
  ite (fun _ => takeFrame sender dest true (dispatched _ _ _ (used h))) fun _ => same

/-- What an ACKNOWLEDGE clears (R16). -/
theorem clearAlarms (sender dest : Byte) (payload : List Byte) (e : Device) (k : Latches d e) :
    (d.sc.alarms.without (acknowledged (.acknowledge sender dest payload))).within
      (e.clearAlarms (readAlarms payload)).sc.alarms := by
  show (d.sc.alarms.without (readAlarms payload)).within (e.sc.alarms.without (readAlarms payload))
  obtain ⟨h1, h2, h3, h4, h5, h6, h7, h8⟩ := k
  simp only [Alarms.within, Alarms.without, Bool.and_eq_true]
  exact ⟨.imp_left h1, .imp_left h2, .imp_left h3, .imp_left h4, .imp_left h5, .imp_left h6, .imp_left h7, .imp_left h8⟩

end Ends

/-- What every command comes to. -/
theorem exec_ends (c : Instr) {s t : State} (h : exec c s = .next t) : Ends c s.dev t.dev := by
  cases c with
  | powerOn => exact .of_did h (.ite (fun _ => .reset (.inl rfl) ..) fun _ => .reset (.inl rfl) ..)
  | resetAssert => exact .of_did h (.reset (.inr (.inl rfl)) ..)
  | resetRelease => exact .of_did h (.ite (fun _ => .same) fun _ => .reset (.inr (.inr rfl)) ..)
  | configurationRead answer =>
    refine .of_did h (.ite (fun _ => .close_same ?_) fun _ => .same)
    cases answer with
    | none => rfl
    | some image =>
      unfold Device.configurationRead
      dsimp only
      split <;> rfl
  | shedSelfTestEnd lineHigh =>
    refine .of_did h (.expiry _ fun t => .listenEntry ?_)
    exact ⟨id, id, id, id, id, id, fun k => by simp [Device.endSelfTest, k], id⟩
  | listenTimerExpiry => exact .of_did h (.expiry _ fun t => .close_same rfl)
  | silenceTimeout =>
    exact .of_did h (.expiry _ fun t => .ite (fun _ => .close_same rfl) fun _ => .kept (Unmoved.reach _ _))
  | rejoinPeriodEnd => exact .of_did h (.ite (fun _ => .expiry _ fun t => .close_same rfl) fun _ => .same)
  | conflictQuietExpiry => exact .of_did h (.expiry _ fun t => .listenEntry (.of_alarms rfl))
  | minuteTick => exact .of_did h (.expiry _ fun t => .close_same rfl)
  | claimTick probe => exact .of_did h (.expiry _ fun t => .close ((Latches.claimTick _ _).after rfl))
  | plugPinChange seated =>
    exact .of_did h (.ite (fun _ => .same) fun _ => .kept ((Unmoved.onPins _ _).trans (Unmoved.onClc _ ⟨rfl, rfl⟩)))
  | plugPresent => exact .of_did h (.ite (fun _ => .expiry _ fun t => .close_same rfl) fun _ => .same)
  | unplug =>
    exact .of_did h (.ite (fun _ => .expiry _ fun t => .close ((Latches.unplug _).after rfl)) fun _ => .same)
  | requestSent =>
    refine .of_did h ?_
    split
    · exact .same
    · exact .kept (Unmoved.onClc _ ⟨rfl, rfl⟩)
  | attemptStart =>
    refine .of_did h ?_
    split
    · exact .same
    · exact .expiry _ fun t => .kept ((Unmoved.reach _ t).trans (Unmoved.onClc _ ⟨rfl, rfl⟩))
  | replyTimeout =>
    refine .of_did h ?_
    split
    · exact .same
    · exact .expiry _ fun t => .close ((Latches.attemptFailed _ _ _).after rfl)
  | replyGapTimeout => exact .of_did h (.close (Latches.frameEnds _ _))
  | replyFrameDiscarded found => exact .of_did h (.close (Latches.frameEnds _ _))
  | identity payload => exact .of_did h (.close (Latches.takeReply _ _ _ fun _ _ => .of_alarms rfl))
  | profile payload =>
    refine .of_did h (.close (Latches.takeReply _ _ _ fun _ e => ?_))
    split <;> exact .of_alarms rfl
  | identificationRetryExpiry => exact .of_did h (.expiry _ fun t => .close_same rfl)
  | pollDue => exact .of_did h (.expiry _ fun t => .close_same rfl)
  | status payload =>
    exact .of_did h (.close (Latches.takeReply _ _ _ fun _ _ => (Latches.compareCount _ _).after rfl))
  | tcHeld =>
    refine .of_did h ?_
    split
    · exact .close_same rfl
    · exact .same
  | tcStale =>
    refine .of_did h ?_
    split
    · exact .close_same rfl
    · exact .close_same rfl
    · exact .same
  | opened payload => exact .of_did h (.close (Latches.takeReply _ _ _ fun _ _ => Latches.readOpened _ _))
  | records payload => exact .of_did h (.close (Latches.takeReply _ _ _ fun _ _ => Latches.readRecords _ _))
  | busy => exact .of_did h (.close (Latches.takeReply _ _ _ fun _ _ => Latches.readBusy _))
  | busyRetryExpiry => exact .of_did h (.expiry _ fun t => .close ((Latches.offerAgain _).after rfl))
  | faultRefreshExpiry => exact .of_did h (.expiry _ fun t => .close ((Latches.requestRead _).after rfl))
  | faultPendingAgeExpiry => exact .of_did h (.expiry _ fun t => .close_same rfl)
  | measurementEnd millivolts milliamps supply =>
    refine .of_did h ?_
    split
    · exact .same
    · exact .expiry _ fun t => .close ((Latches.endMeasurement _ _ _ _ _).after rfl)
  | retestTimerExpiry => exact .of_did h (.expiry _ fun t => .close_same rfl)
  | fullPassTimerExpiry => exact .of_did h (.expiry _ fun t => .close_same rfl)
  | fullPassAgeExpiry => exact .of_did h (.expiry _ fun t => .close_same rfl)
  | signalPassTimer => exact .of_did h (.expiry _ fun t => .close_same rfl)
  | windowSettlingExpiry =>
    exact .of_did h (.expiry _ fun t => .close ((Latches.of_core (FollowedCore.limitEffective _)).after rfl))
  | shedPinChange high =>
    exact .of_did h (.ite (fun _ => .same) fun _ => .kept ((Unmoved.onPins _ _).trans (Unmoved.onHcu _ rfl)))
  | shedAsserted => exact .of_did h (.ite (fun _ => .expiry _ fun t => .close_same rfl) fun _ => .same)
  | shedReleased => exact .of_did h (.ite (fun _ => .expiry _ fun t => .close_same rfl) fun _ => .same)
  | holdOffExpiry => exact .of_did h (.expiry _ fun t => .close_same rfl)
  | measuredPowerChange watts => exact .of_did h (.close_same rfl)
  | overcurrentTimingExpiry =>
    exact .of_did h (.ite (fun _ => .expiry _ fun t => .close ((Latches.overcurrent _).after rfl)) fun _ => .same)
  | stuckTimingExpiry =>
    exact .of_did h (.ite (fun _ => .expiry _ fun t =>
      .close (((Latches.contactorFails _).trans (Latches.beginPull _ _)).after rfl)) fun _ => .same)
  | shedPullExpiry => exact .of_did h (.expiry _ fun t => .close ((Latches.endPull _).after rfl))
  | presenceChange vehicle =>
    exact .of_did h
      (.ite (fun _ => .same) fun _ => .kept ((Unmoved.onPins _ _).trans (Unmoved.followPresence _)))
  | presenceTimerExpiry =>
    exact .of_did h (.expiry _ fun t => .ite (fun _ => .close ((Latches.setPhase _ _).after rfl)) fun _ => .same)
  | intentWindowExpiry =>
    exact .of_did h (.expiry _ fun t => .ite (fun _ => .close ((Latches.setPhase _ _).after rfl)) fun _ => .same)
  | spacingTimerExpiry => exact .of_did h (.expiry _ fun t => .close_same rfl)
  | aspectFlash => exact .of_did h (.expiry _ fun t => .kept { Unmoved.refl s.dev with })
  | lineQuiet =>
    exact .of_did h (.ite (fun _ => .expiry _ fun t =>
      .kept ((Unmoved.reach _ t).trans ((Unmoved.onLu _ rfl).trans (Unmoved.seekLine _)))) fun _ => .same)
  | backoffExpiry =>
    exact .of_did h (.ite (fun _ => .expiry _ fun t =>
      .kept ((Unmoved.reach _ t).trans ((Unmoved.chooseFrame _).trans (Unmoved.beginAttempt _)))) fun _ => .same)
  | noticeHoldbackExpiry =>
    refine .of_did h ?_
    split
    · exact .same
    · exact .kept ((Unmoved.reach _ _).trans (Unmoved.seekLine _))
  | collision =>
    refine .of_did h ?_
    split
    · exact .close ((Latches.failAttempt _ _).after rfl)
    · exact .same
  | noticeCompletion =>
    refine .of_did h ?_
    split
    · exact .same
    · exact .close (((Latches.announce _ _).trans (Latches.noticeShown _ _)).after rfl)
  | listCompletion => exact .of_did h (.ite (fun _ => .close ((Latches.listLeaves _).after rfl)) fun _ => .same)
  | lineGapTimeout =>
    exact .of_did h (.ite (fun _ => .kept { Unmoved.refl s.dev with }) fun _ => .same)
  | frameFormatError found => exact .of_did h (.ite (fun _ => .kept (Unmoved.discardFrame _ _)) fun _ => .same)
  | noticeReceived sender dest payload =>
    exact .of_did h (.receiveFrame _ _ _ (Ends.used fun _ => Latches.takeNotice _ _ _))
  | plan sender dest payload => exact .of_did h (.dispatchFrame _ _ _ _ (Ends.used fun _ => Latches.storePlan _ _))
  | planCancel sender dest payload => exact .of_did h (.dispatchFrame _ _ _ _ (Ends.used Latches.cancelPlan))
  | hold sender dest payload => exact .of_did h (.dispatchFrame _ _ _ _ (Ends.used fun _ => .of_alarms rfl))
  | acknowledge sender dest payload => exact .of_did h (.dispatchFrame _ _ _ _ (Ends.clearAlarms _ _ payload))
  | queryLamps sender dest start => exact .of_did h (.queryFrame _ _ fun _ => Latches.startReply _ _ _ _)
  | queryFaults sender dest start => exact .of_did h (.queryFrame _ _ fun _ => Latches.startReply _ _ _ _)
  | queryHeat sender dest start => exact .of_did h (.queryFrame _ _ fun _ => Latches.startReply _ _ _ _)
  | queryLine sender dest start => exact .of_did h (.queryFrame _ _ fun _ => Latches.startReply _ _ _ _)
  | listReceived sender dest => exact .of_did h (.receiveFrame _ _ _ (Ends.used Latches.refl))
  | peerEntryExpiry station =>
    refine .of_did h ?_
    split
    · exact .same
    · exact .close_same rfl
  | lineStartBit => exact .of_did h (.ite (fun _ => .kept (Unmoved.startBit _)) fun _ => .same)
  | replyFrameBegin =>
    refine .of_did h ?_
    split
    · exact .same
    · exact .kept (Unmoved.leadHeard _ _)
  | queryUnknownSubject sender dest subject start => exact .of_did h (.queryFrame _ _ fun _ => .of_alarms rfl)

end Sys2Proof.Machine
end

section
/-! THEOREMS. Blocks and phase stay settled (`blocksAndPhaseStaySettled`); alarm latches stay set (`alarmsStayLatched`). -/

namespace Sys2Proof.Machine

/-! ### Every step settles the bay -/

/-- A station whose blocks are reset is evaluated and its bay settled (R154). -/
theorem resetBlocks_settled (clock : Nat) (pins : Pins) (start : StartStep) (plug shed : Timer) :
    (Device.resetBlocks clock pins start plug shed).evaluated
      ∧ (Device.resetBlocks clock pins start plug shed).phaseSettled :=
  ⟨⟨rfl, rfl, rfl⟩, fun k => absurd k.1 Bool.false_ne_true⟩

/-- Whatever a command comes to, it leaves the station evaluated and the bay settled. -/
theorem Ends.settled {c : Instr} {d e : Device} (h : Ends c d e) (k : d.evaluated) (p : d.phaseSettled) :
    e.evaluated ∧ e.phaseSettled := by
  cases h with
  | reset _ clock pins start plug shed => exact resetBlocks_settled clock pins start plug shed
  | kept u => exact ⟨u.toSameStanding.evaluated k, u.toSameStanding.phaseSettled p⟩
  | closed _ u =>
    obtain ⟨ke, kp⟩ := close_settled _ _
    exact ⟨u.toSameStanding.evaluated ke, u.toSameStanding.phaseSettled kp⟩

theorem step_settled {s t : State} (k : s.dev.evaluated) (p : s.dev.phaseSettled) (h : step s = .next t) :
    t.dev.evaluated ∧ t.dev.phaseSettled := by
  unfold step at h
  split at h
  · cases h
    have u : SameStanding s.dev s.idle.dev := { SameStanding.refl s.dev with }
    exact ⟨u.evaluated k, u.phaseSettled p⟩
  · next c rest _ => exact (exec_ends c h).settled k p

/-! ### What the state gives (R6, Table 46) -/

theorem evalMatch_eq_none_iff (d : Device) :
    d.evalMatch = .none ↔ d.cu.plan = none ∨ d.identity = none ∨ d.cu.phase = .departing := by
  unfold Device.evalMatch
  cases d.cu.plan with
  | none => simp
  | some plan =>
    cases d.identity with
    | none => simp
    | some id =>
      dsimp only
      split
      · next h => simp [h]
      · next h => split <;> simp [h]

theorem withCoach_iff (p : Phase) : p.withCoach = true ↔ p ≠ .vacant ∧ p ≠ .departing := by
  cases p <;> simp [Phase.withCoach]

theorem heatHolds_iff (d : Device) : d.heatHolds = true ↔
    ∃ plan, d.cu.plan = some plan ∧ plan.heatWaiver = false ∧ 0 < plan.minutes ∧ d.hp.reached = false := by
  unfold Device.heatHolds
  cases d.cu.plan <;> simp [and_assoc]

theorem laneWaived_eq_false_iff (d : Device) :
    d.laneWaived = false ↔ ∀ plan, d.cu.plan = some plan → plan.laneWaiver = false := by
  unfold Device.laneWaived
  cases d.cu.plan <;> simp

/-- A position is announced VACANT: some entry names it, and every one that does shows VACANT (R123). -/
theorem announcedVacant_iff (peers : List PeerEntry) (lane position : Nat) : announcedVacant peers lane position = true ↔
    (∃ e ∈ peers, e.lane = lane ∧ e.position = position)
      ∧ ∀ e ∈ peers, e.lane = lane → e.position = position → e.phase = .vacant := by
  simp only [announcedVacant, Bool.and_eq_true, List.any_eq_true, List.all_eq_true, Bool.or_eq_true, beq_iff_eq,
    Bool.not_eq_true', Bool.and_eq_false_iff, beq_eq_false_iff_ne]
  refine and_congr_right fun _ => forall₂_congr fun e _ => ?_
  tauto

/-- The condition of LANE (R123). -/
theorem laneHolds_iff (d : Device) : d.laneHolds = true ↔
    2 ≤ d.conf.position ∧ (∀ plan, d.cu.plan = some plan → plan.laneWaiver = false)
      ∧ ∃ q, 1 ≤ q ∧ q < d.conf.position
        ∧ ¬ ((∃ e ∈ d.lu.peers, e.lane = d.conf.lane ∧ e.position = q)
          ∧ ∀ e ∈ d.lu.peers, e.lane = d.conf.lane → e.position = q → e.phase = .vacant) := by
  simp only [← announcedVacant_iff, ← laneWaived_eq_false_iff]
  simp only [Device.laneHolds, Bool.and_eq_true, decide_eq_true_eq, Bool.not_eq_true', List.any_eq_true,
    List.mem_range, and_assoc]
  refine and_congr_right fun _ => and_congr_right fun _ => ⟨?_, ?_⟩
  · rintro ⟨k, l, n⟩
    exact ⟨k + 1, by omega, by omega, by simpa using n⟩
  · rintro ⟨q, l, u, n⟩
    refine ⟨q - 1, by omega, ?_⟩
    rw [Nat.sub_add_cancel l]
    simpa using n

/-- Settles O53: the phase rules of every following-up come to an end within their fuel (`Device.movesLeft`), and what
comes after them moves nothing that the evaluations look at (`standing_close`). -/
theorem blocksAndPhaseStaySettled : Obligations.BlocksAndPhaseStaySettled := by
  refine ⟨fun s t => step_settled, fun d => ⟨evalMatch_eq_none_iff d, ?_⟩, fun d coupled w => ?_, fun b => ?_⟩
  · intro plan id hp hi hd
    unfold Device.evalMatch
    rw [hp, hi]
    simp +contextual [hd]
  · have c : d.cu.phase.withCoach = true ↔ coupled := (withCoach_iff _).trans w.symm
    simp only [Device.evalBlocks, Bool.and_eq_true, c, Option.isNone_iff_eq_none, beq_iff_eq, heatHolds_iff,
      laneHolds_iff, Bool.not_eq_true', Device.holdHolds, and_self]
  · simp only [Blocks.preparation, Blocks.departurePath, Blocks.revoking, Bool.or_eq_true, or_assoc,
      and_self]

/-! ### Alarm latches -/

/-- Whatever a command but a reset comes to, it clears no latch that it does not name. -/
theorem Ends.latched {c : Instr} {d e : Device} (h : Ends c d e) (p : c ≠ .powerOn) (a : c ≠ .resetAssert)
    (r : c ≠ .resetRelease) : (d.sc.alarms.without (acknowledged c)).within e.sc.alarms := by
  cases h with
  | reset w => rcases w with w | w | w <;> contradiction
  | kept u => exact Ends.named_within (.of_alarms u.alarms)
  | closed w u => rw [u.alarms, (FollowedCore.close _ _).sc]; exact w

/-- Settles O58: no following-up writes a latch, and no command's own effect clears one but the ACKNOWLEDGE that names
it (`exec_ends`). -/
theorem alarmsStayLatched : Obligations.AlarmsStayLatched := by
  refine ⟨fun c s t h p a r n => ?_, fun s t sender dest payload h => ?_⟩
  · have k := (exec_ends c h).latched p a r
    have e : acknowledged c = .clear := by
      cases c with
      | acknowledge sender dest payload => exact absurd rfl (n sender dest payload)
      | _ => rfl
    rw [e, without_clear] at k
    exact k
  · exact (exec_ends _ h).latched (by simp) (by simp) (by simp)

end Sys2Proof.Machine
end

section
/-! THEOREMS. The commands of the dispatch nodes: HOLD and ACKNOWLEDGE (`holdAndAcknowledgeAct`), PLAN and PLAN_CANCEL
(`plansAreStoredAndCancelled`), with what a following-up makes of a station that is not to heat. -/

namespace Sys2Proof.Machine

/-- What a meaning answers, its device worked out. -/
theorem exec_next {c : Instr} {s : State} {f : Device → Device} {e : Device} (h : exec c s = s.did f)
    (k : f s.dev = e) : exec c s = .next { s with dev := e } := by
  rw [h, ← k]
  rfl

/-! ### Dispatch frames accepted -/

/-- A dispatch frame from a dispatch number in use, to the own number or to all, is accepted where its kind may be
broadcast (R143, R164). -/
theorem dispatchFrame_broadcast {d : Device} {sender dest : Byte} (h : d.hearsFrom sender dest)
    (a : sender.toNat = d.conf.dispatch1 ∨ sender.toNat = d.conf.dispatch2)
    (t : dest.toNat = 0 ∨ dest.toNat = d.conf.station) (accept : Device → Device) :
    d.dispatchFrame sender dest true true accept = close d (accept d.heard) := by
  have k := authorises_of h.2.2.2.1 a
  rw [Device.dispatchFrame, receiveFrame_heard h]
  congr 1
  unfold Device.takeDispatch
  rw [heard_conf, if_neg (by tauto), if_neg (by simp [k]), if_neg (by simp)]

/-- Settles O47: both frames are accepted, and what their acceptance leaves is followed up. -/
theorem holdAndAcknowledgeAct : Obligations.HoldAndAcknowledgeAct := by
  refine ⟨fun s sender dest payload h a t l => ?_, fun s sender dest payload h l => ?_⟩
  · refine completes_of_close (before := s.dev) (exec_next rfl ?_)
    rw [show lengthIs payload 2 = true by simp [lengthIs, l], dispatchFrame_broadcast h a t]
    rfl
  · refine completes_of_close (before := s.dev) (exec_next rfl ?_)
    rw [show lengthIs payload 1 = true by simp [lengthIs, l], dispatchFrame_obeys h]
    rfl

/-! ### A station that is not to heat -/

/-- The claim is forced in what a following-up leaves where it was forced in what the phase rules left (R93). -/
theorem close_claimForced (before d : Device) :
    (close before d).claimForced = (d.settlePhases 8).claimForced := by
  have k := standing_close before d
  have s : Stays (d.settlePhases 8) (close before d) :=
    (Stays.afterPhases _).trans ((Stays.markChanges d.settle before).trans (Stays.seekLine _))
  have o : (close before d).hcu.overLockout = (d.settlePhases 8).hcu.overLockout := by
    rw [(FollowedCore.close before d).hcu, (FollowedCore.settlePhases d 8).hcu]
  unfold Device.claimForced Hcu.locked
  rw [k.phase, k.matchState, k.mode, k.lockout, o, s.clc]

/-- A forced claim is 0 (R93). -/
theorem close_claim {before d : Device} (h : (close before d).claimForced = true) : (close before d).hp.q = 0 := by
  rw [close_claimForced] at h
  rw [(close_tail d before).hp, lampsDone_eq]
  exact if_pos h

/-- Under a cap at 0 the stage is 0 (R102, R104). -/
theorem close_stage {before d : Device} (h : (close before d).capZero = true) : (close before d).hcu.stage = 0 := by
  obtain ⟨_, t, s, _⟩ := close_heater d before
  have z : (close before d).targetStage = 0 := by rw [Device.targetStage, if_pos h]
  rw [z] at t
  have l : (close before d).hcu.target = 0 := by
    rw [t]
    split
    · rfl
    · split <;> simp
  rw [s, l, Nat.min_zero]

/-! ### Plans -/

/-- A change of PHASE content marks the section and asks for an early NOTICE where the station sends (R13). -/
theorem touchPhase_eq (d : Device) : d.touchPhase =
    { d with
      sc := { d.sc with phase := d.sc.phase.touch }, lu := { d.lu with unbegun := d.sc.mode.speaks || d.lu.unbegun } } := by
  unfold Device.touchPhase Device.requestNotice
  cases h : d.sc.mode.speaks
  · rw [if_neg (by simp [h])]
    rfl
  · rw [if_pos (by simp [h])]
    rfl

/-- A mark on PHASE and an early NOTICE request are no part of what a following-up makes of a device. -/
theorem Followed.of_touchPhase {a b : Device} (h : Followed a.touchPhase b) : Followed a b := by
  rw [touchPhase_eq] at h
  obtain ⟨core, bay, heat, lamps, back, rest⟩ := h
  refine ⟨{ core with unbegun := fun k => core.unbegun (by rw [k, Bool.or_true]) }, { bay with }, { heat with },
    { lamps with }, back, ?_⟩
  split at rest
  · next c => rw [if_pos (show a.coupleNow = true from c)]; exact rest
  · next c => rw [if_neg (show ¬ a.coupleNow = true from c)]; exact ⟨{ rest.1 with }, { rest.2 with }⟩

/-- The mask of a plan on a channel (R10). -/
theorem withMask_some (plan : Plan) : Channel.withMask (some plan) = fun c =>
    { c with masked := decide (c.num ≤ 16) && decide (c.status ≠ .off) && plan.mask.getLsbD (c.num - 1) } := by
  funext c
  have f : c.fitted = decide (c.status ≠ .off) := by
    unfold Channel.fitted
    cases c.status <;> rfl
  simp only [Channel.withMask, Channel.ofCoach, f]

/-- What a PLAN stored leaves, a change of PHASE content apart (R5, R10, R96). -/
def Device.planned (d : Device) (plan : Plan) : Device :=
  { d with
    cu := { d.cu with plan := some plan },
    hp := { d.hp with reached := d.hp.reached && decide (d.cu.plan.map Plan.target = some plan.target) },
    ltu := { d.ltu with
      channels := d.ltu.channels.map fun c =>
        { c with masked := decide (c.num ≤ 16) && decide (c.status ≠ .off) && plan.mask.getLsbD (c.num - 1) } } }

/-- A plan that differs from the one stored is a change of PHASE content (R5, R13). -/
theorem storePlan_eq (d : Device) (plan : Plan) :
    d.storePlan plan = if d.cu.plan = some plan then d.planned plan else (d.planned plan).touchPhase := by
  unfold Device.planned
  rw [← withMask_some]
  rfl

/-- What a PLAN_CANCEL leaves of a plan, a change of PHASE content apart (R4, R10). -/
def Device.unplanned (d : Device) : Device :=
  { d with
    cu := { d.cu with plan := none },
    ltu := { d.ltu with channels := d.ltu.channels.map fun c => { c with masked := false } } }

theorem cancelPlan_eq (d : Device) :
    d.cancelPlan = if d.cu.plan.isNone then d else d.unplanned.touchPhase := rfl

/-- Without a plan a following-up leaves no match, no claim and no stage (R4, R6, R93, R102). -/
theorem close_noPlan {before d : Device} (h : d.cu.plan = none) :
    (close before d).cu.matchState = .none ∧ (close before d).hp.q = 0 ∧ (close before d).hcu.stage = 0 := by
  obtain ⟨⟨m, -, -⟩, -⟩ := close_settled before d
  have n : (close before d).cu.matchState = .none := by
    rw [m]
    exact (evalMatch_eq_none_iff _).2 (.inl ((FollowedCore.close before d).plan.1.trans h))
  exact ⟨n, close_claim (by simp [Device.claimForced, n]), close_stage (by simp [Device.capZero, n])⟩

/-- Settles O46: both frames are accepted; what they leave is followed up, a change of PHASE content marked beside it. -/
theorem plansAreStoredAndCancelled : Obligations.PlansAreStoredAndCancelled := by
  refine ⟨fun s sender dest payload plan h l e => ?_, fun payload => ⟨rfl, rfl, rfl, rfl, rfl, rfl, rfl⟩,
    fun s sender dest payload h l p => ?_, fun s sender dest payload h l p => ?_⟩
  · subst e
    have x : exec (.plan sender dest payload) s =
        .next { s with dev := close s.dev (s.dev.heard.storePlan (readPlan payload)) } := by
      refine exec_next rfl ?_
      rw [show lengthIs payload 8 = true by simp [lengthIs, l], dispatchFrame_obeys h]
    refine ⟨_, x, rfl, ?_, fun n m => ?_⟩
    · have f := followed_close s.dev (s.dev.heard.storePlan (readPlan payload))
      rw [storePlan_eq] at f ⊢
      split at f
      · next k => rw [if_pos k]; exact f
      · next k => rw [if_neg k]; exact f.of_touchPhase
    · refine (FollowedCore.close _ _).unbegun ?_
      rw [storePlan_eq, if_neg (show ¬ s.dev.heard.cu.plan = _ from n), touchPhase_eq]
      exact Bool.or_eq_true_iff.2 (.inl m)
  · have x : exec (.planCancel sender dest payload) s =
        .next { s with dev := close s.dev s.dev.heard.unplanned.touchPhase } := by
      refine exec_next rfl ?_
      rw [show lengthIs payload 8 = true by simp [lengthIs, l], dispatchFrame_obeys h, cancelPlan_eq,
        if_neg (by rw [Option.isNone_iff_eq_none]; rintro k; rw [show s.dev.cu.plan = none from k] at p; cases p)]
    exact ⟨_, x, rfl, (followed_close _ _).of_touchPhase, close_noPlan (by rw [touchPhase_eq]; rfl)⟩
  · refine completes_of_close (before := s.dev) (exec_next rfl ?_)
    rw [show lengthIs payload 8 = true by simp [lengthIs, l], dispatchFrame_obeys h, cancelPlan_eq,
      if_pos (by rw [Option.isNone_iff_eq_none]; exact p)]

end Sys2Proof.Machine
end

section
/-! THEOREMS. The end of a measurement (`measurementEndsAreEntered`): what is entered in the records, and what the lamp
passes of a settled bay start from. -/

namespace Sys2Proof.Machine

/-! ### What a measurement enters (R66 to R68) -/

/-- A judgement is UNJUDGED, a failure, or PASS (R66). -/
theorem judge_asksRetest (d : Device) (num millivolts milliamps supply : Nat) :
    ((d.judge num millivolts milliamps supply).failed || d.judge num millivolts milliamps supply == .unjudged)
      = decide (d.judge num millivolts milliamps supply ≠ .pass) := by
  unfold Device.judge judgement
  repeat' split
  all_goals rfl

/-- A judgement writes neither number nor mask nor the coach-reported flag (R67, R68). -/
theorem judged_keeps (c : Channel) (status : LampStatus) (millivolts milliamps : Nat) :
    (c.judged status millivolts milliamps).num = c.num ∧ (c.judged status millivolts milliamps).masked = c.masked
      ∧ (c.judged status millivolts milliamps).coachReported = c.coachReported := by
  unfold Channel.judged
  repeat' split
  all_goals exact ⟨rfl, rfl, rfl⟩

/-- A judgement writes its status and the values (R67, R68). -/
theorem judged_writes (d : Device) (num millivolts milliamps supply : Nat) (c : Channel) :
    (c.judged (d.judge num millivolts milliamps supply) millivolts milliamps).lasting
      = (c.num, d.judge num millivolts milliamps supply, millivolts, milliamps, c.masked) := by
  have k := judge_asksRetest d num millivolts milliamps supply
  generalize d.judge num millivolts milliamps supply = status at k
  unfold Channel.judged
  split
  · rfl
  · next f =>
    split
    · next u => rw [u]; rfl
    · next u =>
      cases status <;> simp_all [Channel.lasting, Channel.good, LampStatus.failed]

/-- The records with the judgement of channel `num` entered. -/
def Device.judgedChannels (d : Device) (num : Nat) (status : LampStatus) (millivolts milliamps : Nat) : List Channel :=
  d.ltu.channels.map fun c => if c.num = num then c.judged status millivolts milliamps else c

/-- The station with a judgement of channel `num` entered (R13, R18, R67, R68, R71). -/
def Device.entered (d : Device) (num : Nat) (status : LampStatus) (millivolts milliamps : Nat) : Device :=
  { d with
    sc := { d.sc with
      alarms := { d.sc.alarms with
        signalRedFail := d.sc.alarms.signalRedFail || (decide (num = 17) && status.failed) },
      lamp :=
        if (d.judgedChannels num status millivolts milliamps).map (fun c => (c.status, c.confirmed, c.isFinal))
            = d.ltu.channels.map (fun c => (c.status, c.confirmed, c.isFinal)) then d.sc.lamp
        else d.sc.lamp.touch },
    ltu := { d.ltu with
      channels := d.judgedChannels num status millivolts milliamps,
      retestTimer :=
        if d.ltu.retestTimer = none ∧ status ≠ .pass then some (d.clock + 5000000) else d.ltu.retestTimer } }

/-- A judgement changes LAMP content where it changes a status or a flag of its own (R13). -/
theorem judged_content_iff (d : Device) (num : Nat) (status : LampStatus) (millivolts milliamps : Nat) :
    (d.judgedChannels num status millivolts milliamps).map Channel.content = d.ltu.channels.map Channel.content
      ↔ (d.judgedChannels num status millivolts milliamps).map (fun c => (c.status, c.confirmed, c.isFinal))
        = d.ltu.channels.map (fun c => (c.status, c.confirmed, c.isFinal)) := by
  unfold Device.judgedChannels
  rw [List.map_map, List.map_map, List.map_inj_left, List.map_inj_left]
  refine forall₂_congr fun c _ => ?_
  obtain ⟨k1, k2, k3⟩ := judged_keeps c status millivolts milliamps
  simp only [Function.comp_apply]
  split
  · simp only [Channel.content, k1, k2, k3, Prod.mk.injEq]
    tauto
  · simp

/-- New records, with the change of LAMP content that they are marked (R13). -/
theorem markLamp_channels (d : Device) (l : List Channel) :
    d.markLamp (d.onLtu fun ltu => { ltu with channels := l }) =
      { d with
        sc := { d.sc with
          lamp := if l.map Channel.content = d.ltu.channels.map Channel.content then d.sc.lamp else d.sc.lamp.touch },
        ltu := { d.ltu with channels := l } } := by
  unfold Device.markLamp Device.sameLampContent
  by_cases k : l.map Channel.content = d.ltu.channels.map Channel.content
  · rw [if_pos k]
    exact if_pos (decide_eq_true k)
  · rw [if_neg k]
    exact if_neg fun h => k (of_decide_eq_true h)

/-- What entering a judgement does, written out. -/
theorem enterJudgement_eq (d : Device) (num millivolts milliamps supply : Nat) :
    d.enterJudgement num (d.judge num millivolts milliamps supply) millivolts milliamps
      = d.entered num (d.judge num millivolts milliamps supply) millivolts milliamps := by
  have a := judge_asksRetest d num millivolts milliamps supply
  generalize d.judge num millivolts milliamps supply = status at a
  have c := judged_content_iff d num status millivolts milliamps
  have r : d.enterRecord num status millivolts milliamps =
      { d with
        sc := { d.sc with lamp := (d.entered num status millivolts milliamps).sc.lamp },
        ltu := { d.ltu with channels := d.judgedChannels num status millivolts milliamps } } := by
    refine (markLamp_channels d (d.judgedChannels num status millivolts milliamps)).trans ?_
    simp only [c]
    rfl
  unfold Device.enterJudgement
  rw [r, a]
  unfold Device.startRetest Device.entered
  by_cases p : status = .pass
  · subst p
    by_cases n : num = 17 <;> simp [n, LampStatus.failed]
  · cases t : d.ltu.retestTimer <;> by_cases n : num = 17 <;> cases status.failed <;>
      simp [p, n, t, Device.onAlarms, Device.onSc, Device.onLtu, Device.timer, Config.retestDelay, Config.second,
        Config.millisecond]

/-! ### The pass goes on (R74) -/

/-- What follows a measurement in its pass concerns the pass alone, and the age timer of a full pass (R72, R74). -/
theorem nextMeasurement_ltu (d : Device) : d.nextMeasurement =
    { d with
      ltu := { d.ltu with
        pass := d.nextMeasurement.ltu.pass, measuring := d.nextMeasurement.ltu.measuring,
        measureTimer := d.nextMeasurement.ltu.measureTimer, stop := d.nextMeasurement.ltu.stop,
        endedAt := d.nextMeasurement.ltu.endedAt, ageTimer := d.nextMeasurement.ltu.ageTimer } } := by
  unfold Device.nextMeasurement
  split
  · rfl
  · next pass _ =>
    split
    · unfold Device.completePass
      dsimp only
      split <;> rfl
    · rfl

/-- A channel is left in the pass: it is measured without a gap (R74). -/
theorem nextMeasurement_goesOn {d : Device} {pass : Pass} {next : Nat} {rest : List Nat} (p : d.ltu.pass = some pass)
    (r : pass.remaining.tail = next :: rest) : d.nextMeasurement =
      { d with
        ltu := { d.ltu with
          pass := some { pass with remaining := next :: rest }, measuring := some next,
          measureTimer := some (d.clock + 40000) } } := by
  unfold Device.nextMeasurement
  rw [p]
  dsimp only
  rw [r]
  rfl

/-- The last channel has been measured: the pass ends, a full pass over coach channels with its age timer started again
(R72, R74). -/
theorem nextMeasurement_ends {d : Device} {pass : Pass} (p : d.ltu.pass = some pass) (r : pass.remaining.tail = [])
    (s : d.ltu.stop = false) : d.nextMeasurement =
      { d with
        ltu := { d.ltu with
          pass := none, measuring := none, measureTimer := none, endedAt := some d.clock,
          ageTimer :=
            if pass.kind = .full ∧ hasCoach pass.channels = true then some (d.clock + 900000000)
            else d.ltu.ageTimer } } := by
  unfold Device.nextMeasurement
  rw [p]
  dsimp only
  rw [r]
  dsimp only
  unfold Device.completePass Device.dropPass Device.noteEnd
  dsimp only
  split <;> simp [Device.onLtu, Device.timer, Config.fullPassAge, Config.second, Config.millisecond, s]

/-! ### What the passes of a settled bay start from -/

/-- The phase of an evaluated and settled bay stays through a following-up (R120). -/
theorem phase_stays {a b : Device} (f : BayFollows a b) (e : a.evaluated) (p : a.phaseSettled) :
    b.cu.phase = a.cu.phase := by
  rw [f.stays (nextPhase_none_of a e p).1]

/-- While the phase stays, the unit comes to its passes with the corroboration done and nothing else (R58, R69). -/
theorem lampsBefore_stays {a : Device} (c : a.coupleNow = false) : a.lampsBefore a.cu.phase = a.corroborate.ltu := by
  rw [lampsBefore_eq a c]
  cases a.cu.phase <;> simp [Device.corroborate, Phase.prepared]

/-- Where no channel joins, the corroboration asks for no pass (R58, R69). -/
theorem joining_eq_nil {ltu : Ltu} {ftu : Ftu} (h : ∀ c ∈ ltu.channels, c.joins ftu = false) : ltu.joining ftu = [] := by
  unfold Ltu.joining
  rw [List.map_eq_nil_iff, List.filter_eq_nil_iff]
  intro c m
  rw [h c m]
  decide

/-- With no kind pending none is served (R70). -/
theorem kindServed_eq_none {d : Device} (r : d.ltu.pendingRetest = false) (s : d.ltu.pendingSignal = false)
    (f : d.ltu.pendingFull = false) : d.kindServed = none := by
  simp [Device.kindServed, r, s, f]

/-- In an evaluated and settled bay with no pass in flight, the kinds that are pending are served, those included that a
joining channel makes pending (R69, R70). -/
theorem passesServed_of_settled {a b : Device} (f : Followed a b) (e : a.evaluated) (p : a.phaseSettled)
    (n : a.ltu.pass = none) : PassesServed { b with ltu := a.corroborate.ltu, hcu := (a.atPasses b).hcu } b := by
  obtain ⟨-, bay, -, lamps, -, -⟩ := f
  have l : a.lampsBefore b.cu.phase = a.corroborate.ltu := by
    rw [phase_stays bay e p, lampsBefore_stays (nextPhase_none_of a e p).2]
  have k := lamps.idle
  unfold Device.atPasses at k ⊢
  rw [l] at k
  exact k n

/-! ### The obligation -/

/-- What MEASUREMENT_END leaves to be followed up. -/
theorem exec_measurementEnd {s : State} {num t0 : Nat} (millivolts milliamps supply : Nat)
    (m : s.dev.ltu.measuring = some num) (t : s.dev.ltu.measureTimer = some t0) :
    exec (.measurementEnd millivolts milliamps supply) s =
      .next { s with dev := close s.dev ((s.dev.reach t0).endMeasurement num millivolts milliamps supply) } := by
  refine exec_next (f := fun d =>
    match d.ltu.measuring with
    | none => d
    | some num => d.onExpiry d.ltu.measureTimer fun t => close d (t.endMeasurement num millivolts milliamps supply))
    rfl ?_
  rw [m, t]
  rfl

/-- What the end of a measurement under a stop leaves (R78). -/
theorem endMeasurement_stop {d : Device} (num millivolts milliamps supply : Nat) (s : d.ltu.stop = true) :
    d.endMeasurement num millivolts milliamps supply = d.dropPass := if_pos s

/-- What the end of a measurement without a stop leaves (R66, R74). -/
theorem endMeasurement_go {d : Device} (num millivolts milliamps supply : Nat) (s : d.ltu.stop = false) :
    d.endMeasurement num millivolts milliamps supply =
      (d.entered num (d.judge num millivolts milliamps supply) millivolts milliamps).nextMeasurement := by
  rw [Device.endMeasurement, if_neg (by rw [s]; decide), enterJudgement_eq]

/-- What the following-up of a pass dropped leaves in an evaluated and settled bay (R76, R78). -/
theorem followed_dropPass {d b : Device} (f : Followed d.dropPass b) (e : d.evaluated) (p : d.phaseSettled) :
    b.ltu.stop = false ∧ b.ltu.ageTimer = d.ltu.ageTimer ∧ b.ltu.retestTimer = d.ltu.retestTimer
      ∧ b.ltu.channels.map (fun c => (c.num, c.status, c.lastV, c.lastI))
          = d.ltu.channels.map (fun c => (c.num, c.status, c.lastV, c.lastI))
      ∧ ((∀ c ∈ d.ltu.channels, c.joins d.ftu = false) → d.ltu.pendingRetest = false →
          d.ltu.pendingSignal = false → d.ltu.pendingFull = false →
          b.ltu.pass = none ∧ b.ltu.measuring = none ∧ b.ltu.window = .none
          ∧ (d.ltu.window ≠ .none → b.hcu.window = .none)) := by
  have k : SameStanding d d.dropPass := { SameStanding.refl d with }
  have e' := k.evaluated e
  have p' := k.phaseSettled p
  have v := passesServed_of_settled f e' p' rfl
  obtain ⟨stop, retest, age, -⟩ := v.rest
  have y := f.2.2.2.2.2
  rw [if_neg (by rw [(nextPhase_none_of _ e' p').2]; decide)] at y
  refine ⟨stop, age, retest, ?_, fun j r s l => ?_⟩
  · have c := congrArg (List.map fun x : Nat × LampStatus × Nat × Nat × Bool => (x.1, x.2.1, x.2.2.1, x.2.2.2.1))
      y.1.channels
    simp only [List.map_map] at c
    exact c
  · have none : b.ltu.pass = none := by
      rw [v.pass, kindServed_eq_none (d := { b with ltu := d.dropPass.corroborate.ltu, hcu := _ }) _ s l]
      · rfl
      · show (d.ltu.pendingRetest || !(d.ltu.joining d.ftu).isEmpty) = false
        rw [r, joining_eq_nil j]
        rfl
    obtain ⟨w, h, -, -, m⟩ := v.released fun pass k => by rw [none] at k; cases k
    exact ⟨none, (m none).1, w, h⟩

/-- The records as the judgement leaves them, in what a following-up does not write (R66 to R68). -/
theorem judgedChannels_lasting (d : Device) (num millivolts milliamps supply : Nat) :
    (d.judgedChannels num (d.judge num millivolts milliamps supply) millivolts milliamps).map Channel.lasting
      = d.ltu.channels.map fun c =>
          if c.num = num then (c.num, d.judge num millivolts milliamps supply, millivolts, milliamps, c.masked)
          else c.lasting := by
  unfold Device.judgedChannels
  rw [List.map_map]
  refine List.map_congr_left fun c _ => ?_
  simp only [Function.comp_apply]
  split
  · exact judged_writes d num millivolts milliamps supply c
  · rfl

/-- Settles O28: the pass dropped, or the judgement entered and the pass gone on, is what is followed up; of it the
following-up keeps what `FollowedCore` and `Stays` say. -/
theorem measurementEndsAreEntered : Obligations.MeasurementEndsAreEntered := by
  refine ⟨fun s num t0 millivolts milliamps supply m t stop => ?_,
    fun s num t0 millivolts milliamps supply pass status channels entered m t go p hs hc he => ?_,
    fun s num t0 millivolts milliamps supply m t go c => ?_⟩
  · have x := exec_measurementEnd millivolts milliamps supply m t
    rw [endMeasurement_stop (d := s.dev.reach t0) num millivolts milliamps supply stop] at x
    have f := followed_close s.dev (s.dev.reach t0).dropPass
    have k : SameStanding s.dev (s.dev.reach t0) := { SameStanding.refl s.dev with }
    exact ⟨_, x, rfl, f, fun e q => followed_dropPass (d := s.dev.reach t0) f (k.evaluated e) (k.phaseSettled q)⟩
  · have x := exec_measurementEnd millivolts milliamps supply m t
    rw [endMeasurement_go (d := s.dev.reach t0) num millivolts milliamps supply go] at x
    have e : entered = (s.dev.reach t0).entered num ((s.dev.reach t0).judge num millivolts milliamps supply)
        millivolts milliamps := by
      subst hs hc
      exact he
    rw [← e] at x
    have p' : entered.ltu.pass = some pass := by rw [e]; exact p
    have clock : entered.clock = max s.dev.clock t0 := by rw [e]; rfl
    refine ⟨fun next rest r => ?_, fun r => ?_⟩
    · rw [nextMeasurement_goesOn p' r] at x
      rw [← clock]
      exact completes_of_close x
    · have age : entered.ltu.ageTimer = s.dev.ltu.ageTimer := by rw [e]; rfl
      rw [nextMeasurement_ends p' r (by rw [e]; exact go)] at x
      rw [← clock, ← age]
      exact completes_of_close x
  · refine ⟨_, exec_measurementEnd millivolts milliamps supply m t, rfl, ?_⟩
    rw [endMeasurement_go (d := s.dev.reach t0) num millivolts milliamps supply go]
    have f := FollowedCore.close s.dev
      ((s.dev.reach t0).entered num ((s.dev.reach t0).judge num millivolts milliamps supply) millivolts
        milliamps).nextMeasurement
    have y := Stays.close s.dev
      (((s.dev.reach t0).entered num ((s.dev.reach t0).judge num millivolts milliamps supply) millivolts
        milliamps).nextMeasurement) (by rw [nextMeasurement_ltu]; exact c)
    generalize close s.dev _ = b at f y ⊢
    rw [nextMeasurement_ltu] at f y
    refine ⟨f.clock, y.channels.trans (judgedChannels_lasting _ num millivolts milliamps supply), y.timers.1, ?_,
      y.timers.2.2, y.identity, f.plan.1, ?_, y.energy.1, ?_, y.records⟩
    · rw [f.sc]; rfl
    · rw [f.sc]; rfl
    · rw [f.lu]; rfl

end Sys2Proof.Machine
end

section
/-! THEOREMS. The statements that fail as they stand (`not_changesAreMarked`, `not_noticeCompletionActs`,
`not_profileIdentifiesTheCoach`): each speaks of every state, and its counterexample is a state whose units do not
agree with one another. The premise that would rule that state out is named with each. -/

namespace Sys2Proof.Machine

/-- A station in RUN, number 21, otherwise as reset leaves it. -/
def inRun : Device :=
  State.reset.dev.onSc fun sc =>
    { sc with
      mode := .run,
      config := some ⟨21, 3, 2, 2, 0, 100, 33, 8, 45, 5, 0#7, true, true, true, 6, 22, false, true⟩,
      phase := ⟨.clean, false⟩ }

/-- The same with a coach plugged in and identified, 4 minutes before its departure, its plan matched. -/
def inRunWithCoach (phase : Phase) : Device :=
  { inRun with
    identity := some ⟨4417, 800, 150, 48, 4, 28, List.replicate 16 ⟨true, true, 4⟩, false⟩,
    clc := { inRun.clc with plug := true, linkUp := true },
    cu := { inRun.cu with
      phase := phase, matchState := .matched, plan := some ⟨4417, 4, 36, false, true, 0#16, false⟩ } }

/-! ### A change that is no change (R13) -/

/-- A bay in READY that is eligible to clear: R126 has been left unapplied. -/
def eligibleReady : Device :=
  { inRunWithCoach .ready with
    ftu := { Ftu.reset with ageTimer := some 9 },
    ltu := { Ltu.reset with ageTimer := some 9 },
    hp := { Hp.reset with reached := true },
    lu := { inRun.lu with receiver := .assembling } }

/-- The payload of a NOTICE from a bay in CLEARED. -/
def clearedNotice : List Byte :=
  [3#8, 0x31#8, 6#8, 0#8, 0#8, 0#8, 0#8, 4#8, 0#8, 0#8, 0#8, 0#8, 0#8, 0#8, 0#8, 0#8]

set_option maxRecDepth 20000 in
/-- The bay moves to CLEARING before it takes the NOTICE, and loses its contest by it: it is back in READY. -/
theorem eligibleReady_marks : ∃ t, exec (.noticeReceived 30#8 0#8 clearedNotice) ⟨[], eligibleReady⟩ = .next t
    ∧ eligibleReady.phaseSame (.noticeReceived 30#8 0#8 clearedNotice) t.dev
    ∧ t.dev.sc.phase ≠ eligibleReady.sc.phase := by
  refine ⟨_, rfl, ?_, by decide⟩
  unfold Device.phaseSame
  decide

/-- Refutes O60: a bay that stands in READY although it is eligible to clear moves to CLEARING and back in the event of a
transition into CLEARED, which marks PHASE while no content of it differs. The statement leaves out that the bay met is
settled, which every step leaves it (`blocksAndPhaseStaySettled`). -/
theorem not_changesAreMarked : ¬ Obligations.ChangesAreMarked := by
  rintro ⟨-, kept⟩
  obtain ⟨t, x, same, marked⟩ := eligibleReady_marks
  obtain ⟨phase, -⟩ := kept _ _ t x nofun nofun nofun nofun nofun nofun nofun nofun
  exact marked (phase nofun same)

/-! ### A window asked for twice (R14, R75) -/

/-- A bay whose retest began at this moment with a retest pending again, the HCU at the window limit that the LTU has not
asked for, and a NOTICE that showed HEAT CLEAN at its end. -/
def retestAgain : Device :=
  { inRunWithCoach .preparing with
    sc := { inRun.sc with heat := ⟨.clean, false⟩ },
    ltu := { Ltu.reset with
      channels := [{ Channel.off 1 with status := .initial }], pendingRetest := true, requests := [1],
      pass := some ⟨.retest, [1], [1]⟩, measuring := some 1, measureTimer := some 40000, endedAt := some 0 },
    hcu := { inRun.hcu with window := .effective },
    lu := { inRun.lu with
      sending := true,
      flight := some ⟨.notice ⟨[], .preparing, none, 0, .clean, .clean, .clean, .clean⟩, [], 0⟩ } }

/-- The pass gives way to an equal one, for which the window is asked. -/
theorem retestAgain_marks : ∃ t, exec .noticeCompletion ⟨[], retestAgain⟩ = .next t ∧ retestAgain.heatSame t.dev
    ∧ retestAgain.windowKept t.dev ∧ t.dev.sc.heat = ⟨.dirty, true⟩ := by
  refine ⟨_, rfl, ?_, ?_, by decide⟩
  · unfold Device.heatSame
    decide
  · unfold Device.windowKept
    decide

/-- Refutes O41: where the HCU stands at the window limit without the LTU holding the window, a pass that gives way to an
equal one asks for the window, which marks HEAT; its content, the pass and the measurement are as before, and the
snapshot showed HEAT CLEAN. The statement leaves out that LTU and HCU agree on the window. -/
theorem not_noticeCompletionActs : ¬ Obligations.NoticeCompletionActs := by
  intro h
  obtain ⟨-, -, sections⟩ := h ⟨[], retestAgain⟩ _ _ _ false false rfl rfl
    ⟨nofun, fun ⟨_, _, _, raise, _⟩ => nomatch raise⟩ ⟨nofun, fun ⟨shown, _⟩ => nomatch shown⟩
  obtain ⟨t, x, -, -, -, heat⟩ := sections rfl
  obtain ⟨u, y, same, kept, marked⟩ := retestAgain_marks
  obtain rfl : t = u := Host.Outcome.next.inj (x.symm.trans y)
  rw [heat same kept] at marked
  exact absurd marked (by decide)

/-! ### A flag that the corroboration drops (R58, R63, R72) -/

/-- A bay in COUPLING whose PROFILE is being received, with a plan for any coach. Its red signal lamp has failed for
good and is said to be reported by the coach, of which the Fault Table has nothing. -/
def signalReported : Device :=
  { inRun with
    clc := { inRun.clc with
      plug := true, exchange := some ⟨.getProfile, 1, .receiving, none⟩, heldIdentity := some [] },
    ltu := { Ltu.reset with channels := [⟨17, .opened, 0, 0, 6, false, true, true, true⟩] },
    cu := { inRun.cu with phase := .coupling, plan := some ⟨0, 90, 36, false, false, 0#16, false⟩ } }

/-- The evaluation drops the flag of the coach with the confirmation, and the full pass then clears the final flag. -/
theorem signalReported_marks : ∃ t, exec (.profile (List.replicate 16 0#8)) ⟨[], signalReported⟩ = .next t
    ∧ t.dev.sc.lamp = ⟨.dirty, true⟩ :=
  ⟨_, rfl, by decide⟩

/-- Refutes O18: a signal channel marked as reported, of which the Fault Table has nothing, loses its confirmation in the
event, so that the full pass clears its final flag and LAMP is DIRTY; the statement takes it to stay confirmed. It
leaves out that the flags of the channels met follow the corroboration set. -/
theorem not_profileIdentifiesTheCoach : ¬ Obligations.ProfileIdentifiesTheCoach := by
  intro h
  obtain ⟨-, rest⟩ := h ⟨[], signalReported⟩ _ _ (List.replicate 16 0#8) rfl rfl rfl rfl rfl
  obtain ⟨t, x, initial, -⟩ := rest rfl rfl rfl
  obtain ⟨u, y, marked⟩ := signalReported_marks
  obtain rfl : t = u := Host.Outcome.next.inj (x.symm.trans y)
  have confirmed : ∀ c ∈ signalReported.ltu.channels, 16 < c.num → c.isFinal = true → c.confirmed = true := by decide
  rw [initial confirmed] at marked
  exact absurd marked (by decide)

end Sys2Proof.Machine
end

section
/-! SUPPORT. The rules of the Coach Link: the arbiter case by case, the end of a frame and of an exchange, and what a
following-up leaves at FTU and CLC. -/

namespace Sys2Proof.Machine

/-- A command whose meaning closes on `after` completes with it, and with what holds of all that a following-up can make
of it. -/
theorem completesWith_of_close {c : Instr} {s : State} {before after : Device} {claim : Device → Prop}
    (h : exec c s = .next { s with dev := close before after }) (k : ∀ t, Followed after t → claim t) :
    CompletesWith c s after claim :=
  ⟨_, h, rfl, followed_close _ _, k _ (followed_close _ _)⟩

/-- A following-up in which no coupling begins. -/
theorem Followed.uncoupled {a b : Device} (f : Followed a b) (c : a.coupleNow = false) : Stays a b ∧ LinkFollows a b := by
  obtain ⟨-, -, -, -, -, rest⟩ := f
  rwa [if_neg (by rw [c]; decide)] at rest

/-! ### The arbiter (R32) -/

section Arbiter

variable {clc : Clc}

/-- An exchange in flight makes the pending kinds wait. -/
theorem serve_inFlight (x : clc.exchange.isSome = true) : clc.serve = clc := if_pos x

/-- Identification is served first: GET-PROFILE with an IDENTITY held, else IDENTIFY (R29). -/
theorem serve_identification (x : clc.exchange = none) (i : clc.pendingId = true) : clc.serve =
    { clc with
      exchange := some ⟨if clc.heldIdentity.isSome = true then .getProfile else .identify, 1, .sending, none⟩,
      pendingId := false } := by
  simp [Clc.serve, Clc.start, Clc.identificationRequest, x, i]

theorem serve_poll (x : clc.exchange = none) (i : clc.pendingId = false) (p : clc.pendingPoll = true) : clc.serve =
    { clc with exchange := some ⟨.poll, 1, .sending, none⟩, pendingPoll := false } := by
  simp [Clc.serve, Clc.start, x, i, p]

theorem serve_read {request : Request} (x : clc.exchange = none) (i : clc.pendingId = false)
    (p : clc.pendingPoll = false) (r : clc.pendingRead = some request) : clc.serve =
    { clc with exchange := some ⟨request, 1, .sending, none⟩, pendingRead := none } := by
  simp [Clc.serve, Clc.start, x, i, p, r]

theorem serve_nothing (x : clc.exchange = none) (i : clc.pendingId = false) (p : clc.pendingPoll = false)
    (r : clc.pendingRead = none) : clc.serve = clc := by
  simp [Clc.serve, x, i, p, r]

/-- The arbiter leaves the link state, the held IDENTITY and the timers alone. -/
theorem serve_keeps : clc.serve.linkUp = clc.linkUp ∧ clc.serve.heldIdentity = clc.heldIdentity
    ∧ clc.serve.retryTimer = clc.retryTimer ∧ clc.serve.pollTimer = clc.pollTimer
    ∧ clc.serve.changeCount = clc.changeCount := by
  rw [Stays.serve_eq]
  exact ⟨rfl, rfl, rfl, rfl, rfl⟩

/-- A READ waits behind an exchange in flight, identification and POLL. -/
theorem serve_pendingRead (h : clc.exchange.isSome = true ∨ clc.pendingId = true ∨ clc.pendingPoll = true) :
    clc.serve.pendingRead = clc.pendingRead := by
  by_cases x : clc.exchange.isSome = true
  · rw [serve_inFlight x]
  · have x' : clc.exchange = none := by simpa using x
    cases i : clc.pendingId with
    | true => rw [serve_identification x' i]
    | false => rw [serve_poll x' i (by simpa [x', i] using h)]

/-- Without a READ pending none is left pending. -/
theorem serve_noRead (h : clc.pendingRead = none) : clc.serve.pendingRead = none := by
  by_cases w : clc.exchange.isSome = true ∨ clc.pendingId = true ∨ clc.pendingPoll = true
  · rw [serve_pendingRead w, h]
  · simp only [not_or, Bool.not_eq_true, Option.isSome_eq_false_iff, Option.isNone_iff_eq_none] at w
    rw [serve_nothing w.1 w.2.1 w.2.2 h, h]

end Arbiter

/-! ### FTU and CLC in a following-up (R32, R42, R43) -/

section Link

variable {a b : Device}

/-- Where no read sequence begins, the FTU stays but for a sequence asked for, and the arbiter serves what was pending. -/
theorem LinkFollows.serves (h : LinkFollows a b) (n : a.readStarts b.cu.phase = false) :
    b.ftu = { a.ftu with reread := a.readAsked b.cu.phase } ∧ b.clc = a.clc.serve := by
  obtain ⟨f, c⟩ := h
  simp only [n] at f c
  exact ⟨f, c⟩

/-- Where a read sequence begins, its OPEN-READ is pending when the arbiter looks. -/
theorem LinkFollows.begins (h : LinkFollows a b) (y : a.readStarts b.cu.phase = true) :
    b.ftu =
      { a.ftu with
        read := some ⟨0, 32, false⟩, busyCount := 0, busyWait := none, reread := false,
        table := a.ftu.table.map (fun e => { e with seen := false }), droppedInSequence := false,
        refreshTimer := some (a.clock + 120000000) }
    ∧ b.clc = Clc.serve { a.clc with pendingRead := some (.openRead 0 32) } := by
  obtain ⟨f, c⟩ := h
  simp only [y, if_true] at f c
  exact ⟨f, c⟩

/-- The arbiter looks once, at the CLC with a READ pending or none. -/
theorem LinkFollows.served (h : LinkFollows a b) : ∃ r, b.clc = Clc.serve { a.clc with pendingRead := r } := ⟨_, h.clc⟩

/-- The link state, the held IDENTITY and the timers stay. -/
theorem LinkFollows.keeps (h : LinkFollows a b) : b.clc.linkUp = a.clc.linkUp
    ∧ b.clc.heldIdentity = a.clc.heldIdentity ∧ b.clc.retryTimer = a.clc.retryTimer
    ∧ b.clc.pollTimer = a.clc.pollTimer ∧ b.clc.changeCount = a.clc.changeCount := by
  rw [h.clc]
  exact serve_keeps

theorem LinkFollows.inFlight (h : LinkFollows a b) (x : a.clc.exchange.isSome = true) :
    b.clc.exchange = a.clc.exchange ∧ b.clc.pendingId = a.clc.pendingId ∧ b.clc.pendingPoll = a.clc.pendingPoll := by
  obtain ⟨r, e⟩ := h.served
  rw [e, serve_inFlight (clc := { a.clc with pendingRead := r }) x]
  exact ⟨rfl, rfl, rfl⟩

/-- Identification is being sent. -/
theorem LinkFollows.identification (h : LinkFollows a b) (x : a.clc.exchange = none) (i : a.clc.pendingId = true) :
    b.clc.exchange =
      some ⟨if a.clc.heldIdentity.isSome = true then .getProfile else .identify, 1, .sending, none⟩
    ∧ b.clc.pendingId = false ∧ b.clc.pendingPoll = a.clc.pendingPoll := by
  obtain ⟨r, e⟩ := h.served
  rw [e, serve_identification (clc := { a.clc with pendingRead := r }) x i]
  exact ⟨rfl, rfl, rfl⟩

/-- POLL is being sent. -/
theorem LinkFollows.poll (h : LinkFollows a b) (x : a.clc.exchange = none) (i : a.clc.pendingId = false)
    (p : a.clc.pendingPoll = true) :
    b.clc.exchange = some ⟨.poll, 1, .sending, none⟩ ∧ b.clc.pendingPoll = false := by
  obtain ⟨r, e⟩ := h.served
  rw [e, serve_poll (clc := { a.clc with pendingRead := r }) x i p]
  exact ⟨rfl, rfl⟩

/-- The READ that was pending is being sent. -/
theorem LinkFollows.read (h : LinkFollows a b) (n : a.readStarts b.cu.phase = false) (x : a.clc.exchange = none)
    (i : a.clc.pendingId = false) (p : a.clc.pendingPoll = false) {request : Request}
    (r : a.clc.pendingRead = some request) :
    b.clc.exchange = some ⟨request, 1, .sending, none⟩ ∧ b.clc.pendingRead = none := by
  rw [(h.serves n).2, serve_read x i p r]
  exact ⟨rfl, rfl⟩

/-- The OPEN-READ of a sequence that begins is being sent. -/
theorem LinkFollows.openRead (h : LinkFollows a b) (y : a.readStarts b.cu.phase = true) (x : a.clc.exchange = none)
    (i : a.clc.pendingId = false) (p : a.clc.pendingPoll = false) :
    b.clc.exchange = some ⟨.openRead 0 32, 1, .sending, none⟩ := by
  rw [(h.begins y).2, serve_read (clc := { a.clc with pendingRead := some (.openRead 0 32) }) x i p rfl]

/-- With nothing pending nothing is sent. -/
theorem LinkFollows.nothing (h : LinkFollows a b) (n : a.readStarts b.cu.phase = false) (x : a.clc.exchange = none)
    (i : a.clc.pendingId = false) (p : a.clc.pendingPoll = false) (r : a.clc.pendingRead = none) :
    b.clc = a.clc := by
  rw [(h.serves n).2, serve_nothing x i p r]

/-- No sequence begins beside one that runs (R43). -/
theorem readStarts_running (r : a.ftu.read.isSome = true) (phase : Phase) : a.readStarts phase = false := by
  simp [Device.readStarts, Option.isNone_eq_false_iff.2 r]

/-- No sequence begins with the link DOWN (R43). -/
theorem readStarts_linkDown (l : a.clc.linkUp = false) (phase : Phase) : a.readStarts phase = false := by
  simp [Device.readStarts, l]

/-- A bay with an identified coach asks for a sequence by the request alone (R42). -/
theorem readAsked_identified (p : a.cu.phase.identified = true) (phase : Phase) : a.readAsked phase = a.ftu.reread := by
  have n : a.cu.phase ≠ .coupling := by intro e; rw [e] at p; cases p
  simp [Device.readAsked, n]

/-- A request once made stands at the end of the event (R42, R43). -/
theorem readAsked_reread (r : a.ftu.reread = true) (phase : Phase) : a.readAsked phase = true := by
  simp [Device.readAsked, r]

/-- No coupling begins in a bay with an identified coach (R27). -/
theorem coupleNow_identified (p : a.cu.phase.identified = true) : a.coupleNow = false := by
  have n : a.cu.phase ≠ .vacant ∧ a.cu.phase ≠ .departing := by
    constructor <;> intro e <;> rw [e] at p <;> cases p
  simp [Device.coupleNow, n]

/-- A sequence asked for in a bay with an identified coach begins, where none runs and the link is UP (R43). -/
theorem readStarts_of_asked (k : Stays a b) (p : a.cu.phase.identified = true) (q : a.ftu.reread = true)
    (r : a.ftu.read = none) (l : a.clc.linkUp = true) : a.readStarts b.cu.phase = true := by
  have i := k.coach p
  simp [Device.readStarts, readAsked_reread q, r, i, l]

end Link

/-! ### The end of a frame (R22 to R24) -/

section FrameEnds

variable {d : Device} {x : Exchange}

theorem at_eq {step : AttemptStep} (e : d.clc.exchange = some x) (h : x.step = step) : d.clc.at step = some x := by
  simp [Clc.at, e, h]

theorem at_other {step : AttemptStep} (e : d.clc.exchange = some x) (h : x.step ≠ step) : d.clc.at step = none := by
  simp [Clc.at, e, h]

theorem frameEnds_receiving (e : d.clc.exchange = some x) (h : x.step = .receiving) (quiet : Bool) :
    d.frameEnds quiet = d.attemptFailed x quiet := by
  unfold Device.frameEnds
  rw [e]
  dsimp only
  rw [h]

theorem frameEnds_lateFrame (e : d.clc.exchange = some x) (h : x.step = .lateFrame) (quiet : Bool) :
    d.frameEnds quiet = d.lateFrameEnds x quiet := by
  unfold Device.frameEnds
  rw [e]
  dsimp only
  rw [h]

/-- A reply that the request accepts, with a LEN of its TYPE: the exchange succeeds and the result is handed on (R24). -/
theorem takeReply_accepted {kind : ReplyKind} {ok : Bool} (e : d.clc.exchange = some x) (h : x.step = .receiving)
    (l : ok = true) (k : x.request.accepts kind = true) (result : Request → Device → Device) :
    d.takeReply kind ok result = result x.request d.exchangeOk := by
  unfold Device.takeReply
  rw [e]
  exact if_pos ⟨h, by rw [l, k]; rfl⟩

/-- Any other reply is a frame that ends without one (R22, R23). -/
theorem takeReply_refused {kind : ReplyKind} {ok : Bool} (e : d.clc.exchange = some x)
    (h : x.step ≠ .receiving ∨ ok = false ∨ x.request.accepts kind = false) (result : Request → Device → Device) :
    d.takeReply kind ok result = d.frameEnds false := by
  unfold Device.takeReply
  rw [e]
  refine if_neg fun ⟨r, k⟩ => ?_
  rw [Bool.and_eq_true] at k
  rcases h with h | h | h
  · exact h r
  · rw [h] at k; exact absurd k.1 (by decide)
  · rw [h] at k; exact absurd k.2 (by decide)

end FrameEnds

end Sys2Proof.Machine
end

section
/-! THEOREMS. Plug and coupling (`pinChangesStartTheFilters`, `plugPresentBeginsCoupling`), and the attempts of an
exchange (`attemptsFollowTheLink`, `unacceptedRepliesFailTheAttempt`, `thirdFailureEndsTheExchange`). -/

namespace Sys2Proof.Machine

/-! ### Plug and coupling -/

/-- The presence timer after a change of the sensor (R136). -/
theorem followPresence_eq (d : Device) : d.followPresence =
    { d with
      cu := { d.cu with
        presence :=
          if d.cu.phase = .departing ∧ d.conf.presenceFitted = true then
            (if d.pins.vehicle = true then none else some (d.clock + 3000000))
          else d.cu.presence } } := by
  unfold Device.followPresence
  split <;> rfl

/-- Settles O10: a level that is a change is taken, and its filter or timer follows. -/
theorem pinChangesStartTheFilters : Obligations.PinChangesStartTheFilters := by
  refine ⟨fun s seated n => exec_next rfl (if_neg n), fun s high n => exec_next rfl (if_neg n),
    fun s vehicle n => exec_next rfl ?_⟩
  rw [if_neg n, followPresence_eq]
  rfl

/-- The plug has become PRESENT at `t` (R26). -/
def Device.plugged (d : Device) (t : Nat) : Device :=
  { d with clock := max d.clock t, clc := { d.clc with plug := true, plugFilter := none } }

/-- Settles O11: with the plug PRESENT the phase rules call for COUPLING in a vacant or departing bay of a mode that
heats, and the following-up then leaves what `Couples` says. -/
theorem plugPresentBeginsCoupling : Obligations.PlugPresentBeginsCoupling := by
  intro s t0 running absent seated
  have x : exec .plugPresent s = .next { s with dev := close s.dev (s.dev.plugged t0) } := by
    refine exec_next rfl ((if_pos ⟨absent, seated⟩).trans ?_)
    rw [running, Device.onExpiry_some]
    rfl
  refine ⟨completes_of_close x, fun heats bay => ⟨_, x, JustCoupling.close _ ?_, (FollowedCore.close _ _).plug.1⟩⟩
  simpa [Device.coupleNow, Device.plugged, heats] using bay

/-! ### Attempts (R21 to R24) -/

/-- What a reply command or the end of a late frame leaves: the wait for quiet goes on from that byte (R23). -/
theorem frameEnds_late {d : Device} {x : Exchange} (e : d.clc.exchange = some x) (h : x.step = .lateFrame) :
    d.frameEnds false =
      { d with clc := { d.clc with exchange := some ⟨x.request, x.attempt, .waitQuiet, some (d.clock + 1042)⟩ } } := by
  rw [frameEnds_lateFrame e h]
  rfl

/-- A late frame is no reply, whatever command ends it at its last byte (R23). -/
theorem lateFrame_unused {d : Device} {x : Exchange} (e : d.clc.exchange = some x) (h : x.step = .lateFrame)
    (kind : ReplyKind) (ok : Bool) (result : Request → Device → Device) : d.takeReply kind ok result = d.frameEnds false :=
  takeReply_refused e (.inl (by rw [h]; decide)) result

/-- A failed attempt that is not the third: the next is sent at once where the link is quiet (R23, R24). -/
theorem attemptFailed_quiet {d : Device} {x : Exchange} (n : x.attempt < 3) : d.attemptFailed x true =
    { d with clc := { d.clc with exchange := some ⟨x.request, x.attempt + 1, .sending, none⟩ } } :=
  if_neg (Nat.not_le.2 n)

/-- A failed attempt that is not the third: the next waits for quiet after a byte (R23, R24). -/
theorem attemptFailed_byte {d : Device} {x : Exchange} (n : x.attempt < 3) : d.attemptFailed x false =
    { d with clc := { d.clc with exchange := some ⟨x.request, x.attempt, .waitQuiet, some (d.clock + 1042)⟩ } } :=
  if_neg (Nat.not_le.2 n)

/-! What the commands of an attempt come to, by where the attempt stands. -/

section Exec

variable {s : State} {x : Exchange}

theorem exec_requestSent (e : s.dev.clc.exchange = some x) (h : x.step = .sending) : Makes .requestSent s
    { s.dev with
      clc := { s.dev.clc with exchange := some { x with step := .window, timer := some (s.dev.clock + 50000) } } } := by
  simp only [Makes, exec, execRequestSent, State.did_eq, State.onDevice, at_eq e h]
  rfl

theorem exec_attemptStart {t0 : Nat} (e : s.dev.clc.exchange = some x) (h : x.step = .waitQuiet)
    (t : x.timer = some t0) : Makes .attemptStart s
      { s.dev with
        clock := max s.dev.clock t0,
        clc := { s.dev.clc with exchange := some ⟨x.request, x.attempt + 1, .sending, none⟩ } } := by
  simp only [Makes, exec, execAttemptStart, State.did_eq, State.onDevice, at_eq e h, t, Device.onExpiry_some]
  rfl

theorem exec_attemptStart_other (e : s.dev.clc.exchange = some x) (h : x.step ≠ .waitQuiet) :
    exec .attemptStart s = .next s := by
  simp only [exec, execAttemptStart, State.did_eq, State.onDevice, at_other e h]

theorem exec_replyTimeout {t0 : Nat} (e : s.dev.clc.exchange = some x) (h : x.step = .window)
    (t : x.timer = some t0) :
    exec .replyTimeout s = .next { s with dev := close s.dev ((s.dev.reach t0).attemptFailed x true) } := by
  simp only [exec, execReplyTimeout, State.did_eq, State.onDevice, at_eq e h, t, Device.onExpiry_some]

theorem exec_replyTimeout_other (e : s.dev.clc.exchange = some x) (h : x.step ≠ .window) :
    exec .replyTimeout s = .next s := by
  simp only [exec, execReplyTimeout, State.did_eq, State.onDevice, at_other e h]

theorem exec_replyFrameBegin (e : s.dev.clc.exchange = some x) :
    exec .replyFrameBegin s = .next { s with dev := s.dev.leadHeard x } := by
  simp only [exec, execReplyFrameBegin, State.did_eq, State.onDevice, e]

end Exec

/-- Settles O14: each step of an attempt is one command; a failed attempt but the third, and a late frame, leave the
request to go again. -/
theorem attemptsFollowTheLink : Obligations.AttemptsFollowTheLink := by
  refine ⟨fun s x e h => exec_requestSent e h, fun s x e h => ?_, fun s x e h => ?_,
    fun s x c e h => ⟨?_, ?_, ?_⟩, fun s x t0 e h t => exec_attemptStart e h t, fun s x t0 e h t n => ?_,
    fun s x e h n => ?_, fun s x found e h n => ?_⟩
  · refine (exec_replyFrameBegin e).trans ?_
    unfold Device.leadHeard
    rw [h]
    rfl
  · refine (exec_replyFrameBegin e).trans ?_
    unfold Device.leadHeard
    rw [h]
    rfl
  · rintro (rfl | rfl | rfl)
    · exact exec_attemptStart_other e (by rw [h]; decide)
    · exact exec_replyTimeout_other e (by rw [h]; decide)
    · refine (exec_replyFrameBegin e).trans ?_
      unfold Device.leadHeard
      rw [h]
  · have late := frameEnds_late e h
    have unused := lateFrame_unused e h
    rintro (⟨payload, reply⟩ | rfl | ⟨found, rfl⟩)
    · rcases reply with rfl | rfl | rfl | rfl | rfl <;>
        exact completes_of_close (exec_next rfl (congrArg (close s.dev) ((unused _ _ _).trans late)))
    · exact completes_of_close (exec_next rfl (congrArg (close s.dev) ((unused _ _ _).trans late)))
    · exact completes_of_close (exec_next rfl (congrArg (close s.dev) late))
  · rintro rfl
    exact completes_of_close (exec_next rfl (congrArg (close s.dev) (frameEnds_lateFrame e h true)))
  · have x' := exec_replyTimeout e h t
    rw [attemptFailed_quiet n] at x'
    exact completes_of_close x'
  · exact completes_of_close
      (exec_next rfl (congrArg (close s.dev) ((frameEnds_receiving e h true).trans (attemptFailed_quiet n))))
  · exact completes_of_close
      (exec_next rfl (congrArg (close s.dev) ((frameEnds_receiving e h false).trans (attemptFailed_byte n))))

/-- The reply TYPEs of each request (Table 17). -/
theorem accepts_iff (r : Request) : (r.accepts .identity = true ↔ r = .identify)
    ∧ (r.accepts .profile = true ↔ r = .getProfile) ∧ (r.accepts .status = true ↔ r = .poll)
    ∧ (r.accepts .opened = true ↔ ∃ start budget, r = .openRead start budget)
    ∧ (r.accepts .records = true ↔ ∃ toggle, r = .fetch toggle)
    ∧ (r.accepts .busy = true ↔ (∃ start budget, r = .openRead start budget) ∨ ∃ toggle, r = .fetch toggle) := by
  cases r <;> simp [Request.accepts]

/-- A LEN that a RECORDS frame may have (R25). -/
theorem recordsLength_iff (n : Nat) : recordsLength n = true ↔ n = 1 ∨ n = 9 ∨ n = 17 := by
  simp [recordsLength, or_assoc]

/-- A LEN other than the one of its TYPE (R25). -/
theorem lengthIs_eq_false {payload : List Byte} {n : Nat} (h : payload.length ≠ n) : lengthIs payload n = false := by
  simp [lengthIs, h]

/-- Settles O16: a reply that is not accepted ends its frame as a discarded one does. -/
theorem unacceptedRepliesFailTheAttempt : Obligations.UnacceptedRepliesFailTheAttempt := by
  intro s x payload e h
  have refused : ∀ (kind : ReplyKind) (ok : Bool) (result : Request → Device → Device),
      (¬ x.request.accepts kind = true ∨ ok = false) →
      s.did (fun d => close d (d.takeReply kind ok result)) = s.did fun d => close d (d.frameEnds false) := by
    intro kind ok result k
    simp only [State.did_eq, State.onDevice,
      takeReply_refused e (.inr (k.symm.imp_right Bool.eq_false_iff.2)) result]
  obtain ⟨identity, profile, status, opened, records, busy⟩ := accepts_iff x.request
  refine ⟨fun k => refused _ _ _ (k.imp (mt identity.1) lengthIs_eq_false),
    fun k => refused _ _ _ (k.imp (mt profile.1) lengthIs_eq_false),
    fun k => refused _ _ _ (k.imp (mt status.1) lengthIs_eq_false),
    fun k => refused _ _ _ (k.imp ?_ lengthIs_eq_false), fun k => refused _ _ _ (k.imp ?_ ?_),
    fun k l => refused _ _ _ (.inl ?_)⟩
  · rw [opened]
    exact fun n ⟨start, budget, r⟩ => n start budget r
  · rw [records]
    exact fun n ⟨toggle, r⟩ => n toggle r
  · rw [← Bool.not_eq_true, recordsLength_iff, not_or, not_or]
    exact id
  · rw [busy]
    rintro (⟨start, budget, r⟩ | ⟨toggle, r⟩)
    · exact k start budget r
    · exact l toggle r

end Sys2Proof.Machine
end

section
/-! THEOREMS. The third failure of an exchange (`thirdFailureEndsTheExchange`), and identification and polling
(`identificationAndPollGoOn`). -/

namespace Sys2Proof.Machine

/-! ### The third failure (R24, R30, R31, R37) -/

theorem latchLinkLost_eq (d : Device) : d.latchLinkLost =
    { d with
      sc := { d.sc with
        alarms := { d.sc.alarms with
          linkLost := d.sc.alarms.linkLost || (d.clc.linkUp && d.cu.phase.identified) } } } := by
  unfold Device.latchLinkLost
  cases d.clc.linkUp && d.cu.phase.identified with
  | true => simp [Device.onAlarms, Device.onSc]
  | false => simp

/-- A sequence that has ended INCOMPLETE is not running, and ends no more. -/
theorem endIncomplete_idem (ftu : Ftu) : ftu.endIncomplete.endIncomplete = ftu.endIncomplete := by
  unfold Ftu.endIncomplete
  cases h : ftu.read.isSome <;> simp [h]

theorem takeBackRead_eq (d : Device) : d.takeBackRead =
    { d with
      clc := { d.clc with pendingRead := none },
      ftu := if d.clc.pendingRead.isSome = true then d.ftu.endIncomplete else d.ftu } := by
  unfold Device.takeBackRead
  split
  · rfl
  · next h =>
    have n : d.clc.pendingRead = none := by simpa using h
    rw [← n]

/-- What a failed exchange leaves with its requester: identification waits for its retry, and a read ends the sequence
(R29, R45, R46). -/
theorem handFailure_eq (d : Device) (request : Request) : d.handFailure request =
    { d with
      clc := { d.clc with
        heldIdentity := if request = .identify ∨ request = .getProfile then none else d.clc.heldIdentity,
        retryTimer :=
          if request = .identify ∨ request = .getProfile then some (d.clock + 5000000) else d.clc.retryTimer },
      ftu :=
        if request ≠ .identify ∧ request ≠ .getProfile ∧ request ≠ .poll then d.ftu.endIncomplete else d.ftu } := by
  cases request <;>
    simp [Device.handFailure, Device.onClc, Device.onFtu, Device.timer, Config.identificationRetry, Config.second,
      Config.millisecond]

/-- The station after an exchange that has failed for good; `reads` says that a read was in flight or pending. -/
def Device.exchangeLost (d : Device) (request : Request) (reads : Bool) : Device :=
  { d with
    sc := { d.sc with
      alarms := { d.sc.alarms with
        linkLost := d.sc.alarms.linkLost || (d.clc.linkUp && d.cu.phase.identified) } },
    clc := { d.clc with
      exchange := none, linkUp := false, pendingRead := none,
      heldIdentity := if request = .identify ∨ request = .getProfile then none else d.clc.heldIdentity,
      retryTimer :=
        if request = .identify ∨ request = .getProfile then some (d.clock + 5000000) else d.clc.retryTimer },
    ftu :=
      if d.ftu.read.isSome = true ∧ reads = true then
        { d.ftu with read := none, busyWait := none, lastEnding := .incomplete }
      else d.ftu }

theorem exchangeFailed_eq {d : Device} {request : Request} {reads : Bool}
    (h : reads = true ↔ d.clc.pendingRead.isSome = true
      ∨ (request ≠ .identify ∧ request ≠ .getProfile ∧ request ≠ .poll)) :
    d.exchangeFailed request = d.exchangeLost request reads := by
  have ended : (if d.ftu.read.isSome = true ∧ reads = true then
        { d.ftu with read := none, busyWait := none, lastEnding := .incomplete } else d.ftu)
      = if reads = true then d.ftu.endIncomplete else d.ftu := by
    cases reads <;> simp [Ftu.endIncomplete]
  unfold Device.exchangeLost
  rw [ended]
  unfold Device.exchangeFailed
  dsimp only
  rw [handFailure_eq, takeBackRead_eq, latchLinkLost_eq]
  by_cases p : d.clc.pendingRead.isSome = true
  · have r : reads = true := h.2 (.inl p)
    by_cases q : request ≠ .identify ∧ request ≠ .getProfile ∧ request ≠ .poll <;>
      simp [p, q, r, Device.onClc, endIncomplete_idem]
  · have r : reads = true ↔ (request ≠ .identify ∧ request ≠ .getProfile ∧ request ≠ .poll) :=
      h.trans (or_iff_right p)
    simp [p, r, Device.onClc]

/-- The read sequence ends with a read exchange that is lost, and with no other. -/
theorem exchangeLost_read (d : Device) (request : Request) (reads : Bool) :
    (d.exchangeLost request reads).ftu.read = if reads = true then none else d.ftu.read := by
  unfold Device.exchangeLost
  cases k : d.ftu.read <;> cases reads <;> simp [k]

/-- The third failed attempt ends the exchange (R24). -/
theorem attemptFailed_third {d : Device} {x : Exchange} (n : 3 ≤ x.attempt) (quiet : Bool) :
    d.attemptFailed x quiet = d.exchangeFailed x.request := if_pos n

/-- What the commands that fail the third attempt leave to be followed up. -/
theorem exec_thirdFailure {s : State} {x : Exchange} {c : Instr} {now : Nat} (e : s.dev.clc.exchange = some x)
    (n : 3 ≤ x.attempt)
    (h : (c = .replyTimeout ∧ x.step = .window ∧ ∃ t0, x.timer = some t0 ∧ now = max s.dev.clock t0)
      ∨ ((c = .replyGapTimeout ∨ ∃ found, c = .replyFrameDiscarded found) ∧ x.step = .receiving
        ∧ now = s.dev.clock)) :
    exec c s = .next { s with dev := close s.dev (Device.exchangeFailed { s.dev with clock := now } x.request) } := by
  rcases h with ⟨rfl, step, t0, t, rfl⟩ | ⟨c', step, rfl⟩
  · rw [exec_replyTimeout e step t, attemptFailed_third n]
    rfl
  · have ends : ∀ quiet, close s.dev (s.dev.frameEnds quiet) = close s.dev (s.dev.exchangeFailed x.request) :=
      fun quiet => by rw [frameEnds_receiving e step, attemptFailed_third n]
    rcases c' with rfl | ⟨found, rfl⟩
    · exact exec_next rfl (ends true)
    · exact exec_next rfl (ends false)

/-- Settles O15: the third failure leaves the exchange lost, no read sequence begins with the link DOWN, and the arbiter
serves what is pending. -/
theorem thirdFailureEndsTheExchange : Obligations.ThirdFailureEndsTheExchange := by
  intro s x c now reads e n how r
  have failed := exec_thirdFailure e n how
  rw [exchangeFailed_eq (d := { s.dev with clock := now }) r] at failed
  refine completesWith_of_close failed fun t f quiet => ?_
  let lost := Device.exchangeLost { s.dev with clock := now } x.request reads
  obtain ⟨-, link⟩ := Followed.uncoupled (a := lost) f quiet
  have down := readStarts_linkDown (a := lost) rfl t.cu.phase
  obtain ⟨ftu, clc⟩ := link.serves down
  obtain ⟨linkUp, held, retry, -, -⟩ := link.keeps
  have read : t.ftu.read = if reads = true then none else s.dev.ftu.read := by
    rw [ftu]
    exact exchangeLost_read _ _ _
  refine ⟨linkUp, by rw [clc]; exact serve_noRead rfl, fun y => by rw [read, if_pos y],
    fun y => by rw [read, if_neg (by rw [y]; decide)], fun i p => ?_, fun i p => link.poll rfl i p, fun i y => ?_,
    fun y => ⟨held.trans (if_pos y), retry.trans (if_pos y)⟩⟩
  · rw [link.nothing down rfl i p rfl]
    rfl
  · obtain ⟨exchange, pending, -⟩ := link.identification rfl i
    rw [show lost.clc.heldIdentity = none from if_pos y] at exchange
    exact ⟨exchange, pending⟩

/-! ### Identification and polling (R29, R33) -/

/-- Settles O17: what each command makes pending, the arbiter serves or leaves waiting. -/
theorem identificationAndPollGoOn : Obligations.IdentificationAndPollGoOn := by
  refine ⟨fun s x payload e h r l => ?_, fun s t0 running => ?_, fun s t0 running => ?_, fun clc =>
    ⟨serve_inFlight, serve_identification, serve_poll, fun _ => serve_read, serve_nothing⟩⟩
  · refine completesWith_of_close (before := s.dev)
      (exec_next rfl (congrArg (close s.dev) (takeReply_accepted e h ?_ ?_ _))) fun t f quiet => ?_
    · simp [lengthIs, l]
    · rw [r]; rfl
    · obtain ⟨-, link⟩ := f.uncoupled quiet
      obtain ⟨exchange, pending, poll⟩ := link.identification rfl rfl
      exact ⟨exchange, link.keeps.2.1, link.keeps.1, pending, poll⟩
  · refine completesWith_of_close (before := s.dev)
      (exec_next rfl (congrArg (s.dev.onExpiry · _) running)) fun t f quiet => ?_
    obtain ⟨-, link⟩ := f.uncoupled quiet
    refine ⟨link.keeps.2.2.1, fun x n => ?_, fun x e => ?_⟩
    · obtain ⟨exchange, pending, -⟩ := link.identification x rfl
      rw [exchange]
      exact ⟨by simp [n], pending⟩
    · obtain ⟨exchange, pending, -⟩ := link.inFlight (Option.isSome_of_eq_some e)
      exact ⟨exchange.trans e, pending⟩
  · refine completesWith_of_close (before := s.dev)
      (exec_next rfl ((congrArg (s.dev.onExpiry · _) running).trans (congrArg (close s.dev) ?_))) fun t f quiet => ?_
    · simp only [Device.onClc, Device.reach_clc, running]
      rfl
    · obtain ⟨-, link⟩ := f.uncoupled quiet
      refine ⟨link.keeps.2.2.2.1, fun x i => link.poll x i rfl, fun x i => ?_, fun x e => ?_⟩
      · exact (link.identification x i).2.2
      · obtain ⟨exchange, -, poll⟩ := link.inFlight (Option.isSome_of_eq_some e)
        exact ⟨exchange.trans e, poll⟩

end Sys2Proof.Machine
end

section
/-! THEOREMS. STATUS and its age (`statusAndItsAge`), OPENED (`openedGoesOnOrCompletes`), BUSY, duplicates and the timers
of fault reading (`busyAndFaultTimers`). -/

namespace Sys2Proof.Machine

/-! ### STATUS (R34 to R36) -/

/-- A request for a read sequence, said as a value (R42). -/
theorem requestRead_eq (d : Device) : d.requestRead =
    { d with ftu := { d.ftu with reread := d.ftu.reread || d.cu.phase.identified } } := by
  unfold Device.requestRead
  cases d.cu.phase.identified <;> simp [Device.onFtu]

/-- The change count is the one last seen, and one that differs asks for a read sequence (R36, R42). -/
theorem compareCount_eq (d : Device) (count : Nat) : d.compareCount count =
    { d with
      clc := { d.clc with changeCount := d.clc.changeCount.map fun _ => count },
      ftu := { d.ftu with
        reread := d.ftu.reread
          || (d.cu.phase.identified
            && (match d.clc.changeCount with
              | none => false
              | some seen => decide (seen ≠ count))) } } := by
  unfold Device.compareCount
  cases e : d.clc.changeCount with
  | none =>
    simp only [Option.map_none, Bool.and_false, Bool.or_false]
    rw [← e]
  | some seen =>
    by_cases k : seen = count
    · subst k
      simp only [if_true, Option.map_some, ne_eq, not_true_eq_false, decide_false, Bool.and_false, Bool.or_false]
      rw [← e]
    · simp [k, requestRead_eq, Device.onClc]

/-- What STATUS leaves to be followed up (R24, R34, R36). -/
def Device.statusTaken (d : Device) (payload : List Byte) : Device :=
  { d with
    clc := { d.clc with
      exchange := none, linkUp := true,
      lastStatus := some ⟨max (-80) (min 100 (signedAt payload 0)), d.clock⟩, tcState := .current,
      changeCount := d.clc.changeCount.map fun _ => byteAt payload 2 },
    ftu := { d.ftu with
      reread := d.ftu.reread
        || (d.cu.phase.identified
          && (match d.clc.changeCount with
            | none => false
            | some seen => decide (seen ≠ byteAt payload 2))) } }

theorem takeStatus_eq (d : Device) (payload : List Byte) : d.exchangeOk.takeStatus payload = d.statusTaken payload :=
  compareCount_eq _ _

/-- With a grant of 0 the target stage is 0 (R102). -/
theorem targetStage_noGrant {d : Device} (g : d.hcu.grant = 0) : d.targetStage = 0 := by
  have s : d.grantStage = 0 := by
    unfold Device.grantStage
    split
    · rfl
    · rw [g, Nat.zero_mul, Nat.zero_div]
  unfold Device.targetStage Device.underRejoin Device.underWindow
  rw [s]
  repeat' split
  all_goals simp

/-- A forced claim takes grant and stage with it (R93, R104). -/
theorem close_forced {before d : Device} (h : (close before d).claimForced = true) :
    (close before d).hp.q = 0 ∧ (close before d).hcu.grant = 0 ∧ (close before d).hcu.stage = 0 := by
  obtain ⟨grant, target, stage, -⟩ := close_heater d before
  rw [if_pos h] at grant
  rw [targetStage_noGrant grant] at target
  have t : (close before d).hcu.target = 0 := by
    rw [target]
    repeat' split
    all_goals simp
  exact ⟨close_claim h, grant, by rw [stage, t, Nat.min_zero]⟩

/-- A STALE cabin temperature forces the claim, and so does a coupling that begins (R93). -/
theorem close_stale {before d : Device} (h : d.clc.tcState = .stale) : (close before d).claimForced = true := by
  cases c : d.coupleNow with
  | true =>
    have p := (JustCoupling.close before c).phase
    simp [Device.claimForced, p, Phase.prepared]
  | false =>
    have k := (Stays.close before d c).clc
    have t : (close before d).clc.tcState = .stale := by rw [k]; exact h
    simp [Device.claimForced, t]

/-- The cabin temperature has become HELD (R35). -/
def Device.becomeHeld (d : Device) (last : LastStatus) : Device :=
  { d with clock := max d.clock (last.arrived + 15000000), clc := { d.clc with tcState := .held } }

/-- Settles O19: a STATUS and its age close on what they leave of the temperature; the read sequence asked for begins or
waits as `LinkFollows` says, and a STALE temperature forces the claim. -/
theorem statusAndItsAge : Obligations.StatusAndItsAge := by
  refine ⟨fun s x payload e h r l => ?_, fun s last current taken => ?_, fun s last fresh taken => ?_⟩
  · have ok : lengthIs payload 3 = true := by simp [lengthIs, l]
    have taken := (takeReply_accepted (kind := .status) e h ok (by rw [r]; rfl) fun _ d => d.takeStatus payload).trans
      (takeStatus_eq s.dev payload)
    refine completesWith_of_close (before := s.dev) (exec_next rfl (congrArg (close s.dev) taken))
      fun t f seen p c n => ?_
    let after := s.dev.statusTaken payload
    have asked : after.ftu.reread = true := by simp [after, Device.statusTaken, p, c, n]
    have count : after.clc.changeCount = some (byteAt payload 2) := congrArg (Option.map _) c
    obtain ⟨stays, link⟩ := Followed.uncoupled (a := after) f (coupleNow_identified p)
    refine ⟨link.keeps.2.2.2.2.trans count, fun idle => ?_, fun running => ?_⟩
    · have starts := readStarts_of_asked stays p asked idle rfl
      obtain ⟨ftu, -⟩ := link.begins starts
      rw [ftu]
      exact ⟨rfl, rfl, rfl, rfl, rfl, rfl, fun i q => link.openRead starts rfl i q⟩
    · obtain ⟨ftu, -⟩ := link.serves (readStarts_running (a := after) running _)
      rw [ftu]
      exact ⟨rfl, readAsked_reread asked _⟩
  · have x : exec .tcHeld s = .next { s with dev := close s.dev (s.dev.becomeHeld last) } := by
      simp only [exec, execTcHeld, State.did_eq, State.onDevice, current, taken]
      rfl
    exact completes_of_close x
  · have x : exec .tcStale s = .next { s with dev := close s.dev (s.dev.becomeStale last) } := by
      rcases fresh with k | k <;>
        simp only [exec, execTcStale, State.did_eq, State.onDevice, k, taken]
    exact ⟨_, x, rfl, followed_close _ _, close_forced (close_stale rfl)⟩

/-! ### OPENED (R45, R50) -/

/-- An offer of the FTU to a link that is UP is taken (R37). -/
theorem offerRead_up {d : Device} (l : d.clc.linkUp = true) (request : Request) :
    d.offerRead request = { d with clc := { d.clc with pendingRead := some request } } := if_pos l

/-- An offer of the FTU to a link that is DOWN ends the sequence (R37). -/
theorem offerRead_down {d : Device} (l : d.clc.linkUp = false) (request : Request) :
    d.offerRead request = { d with ftu := d.ftu.endIncomplete } := if_neg (by rw [l]; decide)

/-- A sequence that runs ends INCOMPLETE (R50). -/
theorem endIncomplete_running {ftu : Ftu} (r : ftu.read.isSome = true) :
    ftu.endIncomplete = { ftu with read := none, busyWait := none, lastEnding := .incomplete } := if_pos r

/-- Records stand from the start index on: FETCH goes on. -/
theorem readOpened_fetch {d : Device} {read : CurrentRead} {available : Nat} (l : d.clc.linkUp = true)
    (r : d.ftu.read = some read) (n : read.start < available) : d.readOpened available =
      { d with
        clc := { d.clc with pendingRead := some (.fetch false) },
        ftu := { d.ftu with read := some ⟨read.start, 32, true⟩, toggle := false, busyCount := 0 } } := by
  unfold Device.readOpened
  rw [r]
  dsimp only
  rw [if_pos n]
  exact offerRead_up (by exact l) _

/-- None do: the sequence ends COMPLETE. -/
theorem readOpened_complete {d : Device} {read : CurrentRead} {available : Nat}
    (r : d.ftu.read = some read) (n : available ≤ read.start) : d.readOpened available =
      { d with ftu := { d.ftu with busyCount := 0 }.endComplete d.clock } := by
  unfold Device.readOpened
  rw [r]
  dsimp only
  rw [if_neg (Nat.not_lt.2 n)]
  rfl

/-- Settles O20: the reply is accepted, and the sequence goes on or ends. -/
theorem openedGoesOnOrCompletes : Obligations.OpenedGoesOnOrCompletes := by
  intro s x start budget payload read e h r l k
  have ok : lengthIs payload 1 = true := by simp [lengthIs, l]
  have taken := takeReply_accepted (kind := .opened) e h ok (by rw [r]; rfl) fun _ d => d.readOpened (openedAvailable payload)
  refine ⟨fun n => ?_, fun n => ?_⟩
  · exact completes_of_close
      (exec_next rfl (congrArg (close s.dev) (taken.trans (readOpened_fetch (d := s.dev.exchangeOk) rfl k n))))
  · exact completes_of_close
      (exec_next rfl (congrArg (close s.dev) (taken.trans (readOpened_complete (d := s.dev.exchangeOk) k n))))

/-! ### BUSY and duplicates (R47) -/

/-- Below 20 replies in a row that advance nothing, the sequence goes on. -/
theorem countBusy_below {d : Device} (n : d.ftu.busyCount + 1 < 20) (next : Device → Device) :
    d.countBusy next = next { d with ftu := { d.ftu with busyCount := d.ftu.busyCount + 1 } } :=
  if_neg (Nat.not_le.2 n)

/-- At 20 it ends INCOMPLETE. -/
theorem countBusy_limit {d : Device} (r : d.ftu.read.isSome = true) (n : 20 ≤ d.ftu.busyCount + 1)
    (next : Device → Device) : d.countBusy next =
      { d with
        ftu := { d.ftu with
          busyCount := d.ftu.busyCount + 1, read := none, busyWait := none, lastEnding := .incomplete } } :=
  (if_pos n).trans (congrArg (fun ftu : Ftu => { d with ftu := ftu }) (endIncomplete_running (by exact r)))

/-- BUSY is counted: the sequence waits 100 ms, or ends INCOMPLETE at the twentieth. -/
theorem readBusy_eq {d : Device} (r : d.ftu.read.isSome = true) : d.readBusy =
    { d with
      ftu :=
        if d.ftu.busyCount + 1 < 20 then
          { d.ftu with busyCount := d.ftu.busyCount + 1, busyWait := some (d.clock + 100000) }
        else
          { d.ftu with
            busyCount := d.ftu.busyCount + 1, read := none, busyWait := none, lastEnding := .incomplete } } := by
  unfold Device.readBusy
  rw [if_pos r]
  split
  · next n =>
    rw [countBusy_below n]
    rfl
  · next n => exact countBusy_limit r (Nat.not_lt.1 n) _

/-- The exchange of a sequence that runs is offered again on a link that is UP (R37, R47). -/
theorem offerAgain_up {d : Device} {read : CurrentRead} (l : d.clc.linkUp = true) (r : d.ftu.read = some read) :
    d.offerAgain =
      { d with
        clc := { d.clc with
          pendingRead :=
            some (if read.fetching = true then .fetch d.ftu.toggle else .openRead read.start 32) } } := by
  unfold Device.offerAgain
  rw [r]
  exact offerRead_up l _

/-- On a link that is DOWN the sequence ends INCOMPLETE (R37; log entry 11). -/
theorem offerAgain_down {d : Device} {read : CurrentRead} (l : d.clc.linkUp = false) (r : d.ftu.read = some read) :
    d.offerAgain = { d with ftu := { d.ftu with read := none, busyWait := none, lastEnding := .incomplete } } := by
  unfold Device.offerAgain
  rw [r, ← endIncomplete_running (Option.isSome_of_eq_some r)]
  exact offerRead_down l _

/-- A RECORDS frame with the other toggle is a duplicate (R46, R47). -/
theorem readRecords_duplicate {d : Device} {read : CurrentRead} {payload : List Byte} (r : d.ftu.read = some read)
    (n : recordsToggle payload ≠ d.ftu.toggle) : d.readRecords payload = d.countBusy Device.offerAgain := by
  unfold Device.readRecords
  rw [r]
  exact if_neg n

/-- An exchange offered again is sent once nothing else is pending, and the sequence goes on as it stands (R32). -/
theorem offered_sent {a b : Device} {read : CurrentRead} {request : Request} (f : Followed a b)
    (c : a.coupleNow = false) (r : a.ftu.read = some read) (q : a.clc.pendingRead = some request)
    (x : a.clc.exchange = none) (i : a.clc.pendingId = false) (p : a.clc.pendingPoll = false) :
    b.ftu.read = some read ∧ b.ftu.busyCount = a.ftu.busyCount ∧ b.ftu.busyWait = a.ftu.busyWait
      ∧ b.clc.exchange = some ⟨request, 1, .sending, none⟩ := by
  obtain ⟨-, link⟩ := f.uncoupled c
  have n := readStarts_running (Option.isSome_of_eq_some r) b.cu.phase
  obtain ⟨ftu, -⟩ := link.serves n
  rw [ftu]
  exact ⟨r, rfl, rfl, (link.read n x i p q).1⟩

/-! ### The timers of fault reading (R44, R60) -/

/-- Where the age timer has stopped it stays stopped, and FAULT_PENDING is present with a coach (R60). -/
theorem close_faultPending {before d : Device} (n : d.ftu.ageTimer = none) : (close before d).ftu.ageTimer = none
    ∧ (close before d).cu.blocks.faultPending = (close before d).cu.phase.withCoach := by
  have age : (close before d).ftu.ageTimer = none := by
    cases c : d.coupleNow with
    | true => rw [(JustCoupling.close before c).ftu]; rfl
    | false => exact (Stays.close before d c).ftu.2.2.2.2.trans n
  obtain ⟨⟨-, -, blocks⟩, -⟩ := close_settled before d
  refine ⟨age, ?_⟩
  rw [blocks]
  simp [Device.evalBlocks, age]

/-- What is left by a refresh timer that has run out (R42, R44). -/
def Device.refreshDue (d : Device) (t : Nat) : Device :=
  { d with
    clock := max d.clock t,
    ftu := { d.ftu with refreshTimer := none, reread := d.ftu.reread || d.cu.phase.identified } }

/-- Settles O22: BUSY and duplicates are counted, each timer leaves what its rule says, and what is offered or asked for
goes on as `LinkFollows` says. -/
theorem busyAndFaultTimers : Obligations.BusyAndFaultTimers := by
  refine ⟨fun s x e h r running => ?_, fun s x toggle payload read e h r l k other => ⟨fun n => ?_, fun n => ?_⟩,
    fun s t0 read waits k => ⟨fun up => ?_, fun down => ?_⟩, fun s t0 due => ?_, fun s t0 due => ?_⟩
  · obtain ⟨-, -, -, -, -, busy⟩ := accepts_iff x.request
    have taken := takeReply_accepted (kind := .busy) e h rfl (busy.2 r) fun _ d => d.readBusy
    exact completes_of_close
      (exec_next rfl (congrArg (close s.dev) (taken.trans (readBusy_eq (d := s.dev.exchangeOk) running))))
  · have taken := (takeReply_accepted (kind := .records) e h ((recordsLength_iff _).2 l) (by rw [r]; rfl)
      fun _ d => d.readRecords payload).trans (readRecords_duplicate (d := s.dev.exchangeOk) k other)
    have offered := (countBusy_below (d := s.dev.exchangeOk) n Device.offerAgain).trans (offerAgain_up rfl k)
    refine completesWith_of_close (before := s.dev)
      (exec_next rfl (congrArg (close s.dev) (taken.trans offered))) fun t f c i p => ?_
    obtain ⟨goesOn, count, -, sent⟩ := offered_sent f c k rfl rfl i p
    exact ⟨goesOn, count, sent⟩
  · have taken := (takeReply_accepted (kind := .records) e h ((recordsLength_iff _).2 l) (by rw [r]; rfl)
      fun _ d => d.readRecords payload).trans (readRecords_duplicate (d := s.dev.exchangeOk) k other)
    exact completes_of_close (exec_next rfl (congrArg (close s.dev)
      (taken.trans (countBusy_limit (d := s.dev.exchangeOk) (Option.isSome_of_eq_some k) n _))))
  · refine completesWith_of_close (before := s.dev) (exec_next rfl ((congrArg (s.dev.onExpiry · _) waits).trans
      (congrArg (close s.dev) (offerAgain_up up k)))) fun t f c x i p => ?_
    obtain ⟨goesOn, -, wait, sent⟩ := offered_sent f c k rfl x i p
    exact ⟨goesOn, wait, sent⟩
  · exact completes_of_close (exec_next rfl ((congrArg (s.dev.onExpiry · _) waits).trans
      (congrArg (close s.dev) (offerAgain_down down k))))
  · refine completesWith_of_close (before := s.dev) (exec_next rfl ((congrArg (s.dev.onExpiry · _) due).trans
      (congrArg (close s.dev) (requestRead_eq _)))) fun t f p => ?_
    let after := s.dev.refreshDue t0
    have asked : after.ftu.reread = true := by simp [after, Device.refreshDue, p]
    obtain ⟨stays, link⟩ := Followed.uncoupled (a := after) f (coupleNow_identified p)
    refine ⟨fun idle up => ?_, fun stands => ?_⟩
    · have starts := readStarts_of_asked stays p asked idle up
      obtain ⟨ftu, -⟩ := link.begins starts
      rw [ftu]
      exact ⟨rfl, rfl, rfl, fun x i q => link.openRead starts x i q⟩
    · have none : after.readStarts t.cu.phase = false :=
        stands.elim (fun running => readStarts_running (a := after) running _)
          fun down => readStarts_linkDown (a := after) down _
      obtain ⟨ftu, -⟩ := link.serves none
      rw [ftu]
      exact ⟨rfl, readAsked_reread asked _, rfl⟩
  · have x := exec_next (c := .faultPendingAgeExpiry) (s := s) rfl (congrArg (s.dev.onExpiry · _) due)
    exact ⟨_, x, rfl, followed_close _ _, close_faultPending rfl⟩

end Sys2Proof.Machine
end

section
/-! THEOREMS. An accepted RECORDS frame (`recordsFrameIsMerged`): the merging of its records, each followed up before the
next, and the ways in which the frame goes on or ends the sequence. -/

namespace Sys2Proof.Machine

/-! ### Merging (R53 to R55) -/

/-- `g` differs from `f` in the table, the overflow counter and the two flags of a dropped record alone. -/
def Ftu.TableOnly (f g : Ftu) : Prop :=
  g = { f with
    table := g.table, overflow := g.overflow, blockingDropped := g.blockingDropped,
    droppedInSequence := g.droppedInSequence }

theorem Ftu.TableOnly.trans {f g h : Ftu} (k : f.TableOnly g) (l : g.TableOnly h) : f.TableOnly h := by
  unfold Ftu.TableOnly at *
  rw [k] at l
  exact l

theorem merge_tableOnly (restrictive : BitVec 7) (ftu : Ftu) (r : FaultRecord) :
    ftu.TableOnly (ftu.merge restrictive r) := by
  unfold Ftu.TableOnly Ftu.merge Ftu.meetFull
  repeat' split
  all_goals rfl

/-- A merge does not look at the BUSY count. -/
theorem merge_busyCount (restrictive : BitVec 7) (ftu : Ftu) (r : FaultRecord) (n : Nat) :
    Ftu.merge restrictive { ftu with busyCount := n } r = { ftu.merge restrictive r with busyCount := n } := by
  unfold Ftu.merge Ftu.meetFull
  dsimp only
  repeat' split
  all_goals rfl

/-- The records of a frame merged in their order. -/
def Ftu.mergeAll (restrictive : BitVec 7) (ftu : Ftu) (records : List FaultRecord) : Ftu :=
  records.foldl (fun ftu r => ftu.merge restrictive r) ftu

theorem mergeAll_tableOnly (restrictive : BitVec 7) (ftu : Ftu) (records : List FaultRecord) :
    ftu.TableOnly (ftu.mergeAll restrictive records) := by
  induction records generalizing ftu with
  | nil => rfl
  | cons r rest ih => exact (merge_tableOnly restrictive ftu r).trans (ih _)

theorem mergeAll_busyCount (restrictive : BitVec 7) (ftu : Ftu) (records : List FaultRecord) (n : Nat) :
    Ftu.mergeAll restrictive { ftu with busyCount := n } records
      = { ftu.mergeAll restrictive records with busyCount := n } := by
  induction records generalizing ftu with
  | nil => rfl
  | cons r rest ih =>
    refine Eq.trans ?_ (ih (ftu.merge restrictive r))
    rw [← merge_busyCount]
    rfl

/-! ### What the reading leaves of the station -/

/-- `e` is the station `d` with its reading gone on: what no following-up writes stands, and of the coach the identity, the
link state and the energy; a bay with an identified coach is one still. -/
structure ReadsOn (d e : Device) : Prop where
  core : FollowedCore d e
  identity : e.identity = d.identity
  link : e.clc.linkUp = d.clc.linkUp
  energy : e.hcu.energy = d.hcu.energy
  coach : d.cu.phase.identified = true → e.cu.phase.identified = true

namespace ReadsOn

theorem refl (d : Device) : ReadsOn d d := ⟨FollowedCore.refl d, rfl, rfl, rfl, id⟩

theorem trans {a b c : Device} (h : ReadsOn a b) (k : ReadsOn b c) : ReadsOn a c :=
  ⟨h.core.trans k.core, k.identity.trans h.identity, k.link.trans h.link, k.energy.trans h.energy, k.coach ∘ h.coach⟩

variable (d : Device)

theorem onFtu (f : Ftu → Ftu) : ReadsOn d (d.onFtu f) := ⟨FollowedCore.onFtu d f, rfl, rfl, rfl, id⟩

theorem offerRead (request : Request) : ReadsOn d (d.offerRead request) := by
  cases l : d.clc.linkUp with
  | true =>
    have core := FollowedCore.offerRead d request
    rw [offerRead_up l] at core ⊢
    exact ⟨core, rfl, rfl, rfl, id⟩
  | false =>
    rw [offerRead_down l]
    exact onFtu d _

theorem close (before : Device) (p : d.cu.phase.identified = true) : ReadsOn d (Machine.close before d) := by
  have k := Stays.close before d (coupleNow_identified p)
  exact ⟨FollowedCore.close before d, k.identity, by rw [k.clc], k.energy.1, k.coach⟩

theorem afterFrame (endFlag : Bool) : ReadsOn d (d.afterFrame endFlag) := by
  unfold Device.afterFrame
  repeat' split
  · exact refl d
  · exact onFtu d _
  · exact offerRead d _
  · exact (onFtu d _).trans (offerRead _ _)
  · exact onFtu d _

end ReadsOn

/-- Another kind than READ is in flight or pending (R32). -/
def Clc.engaged (clc : Clc) : Prop := clc.exchange.isSome = true ∨ clc.pendingId = true ∨ clc.pendingPoll = true

/-- Nothing is in flight or pending. -/
def Clc.free (clc : Clc) : Prop :=
  clc.exchange = none ∧ clc.pendingId = false ∧ clc.pendingPoll = false ∧ clc.pendingRead = none

/-- The arbiter serves what comes before a READ, and it is in flight then. -/
theorem serve_engaged {clc : Clc} (h : clc.engaged) : clc.serve.engaged := by
  by_cases x : clc.exchange.isSome = true
  · rw [serve_inFlight x]
    exact h
  · have x' : clc.exchange = none := by simpa using x
    cases i : clc.pendingId with
    | true => rw [serve_identification x' i]; exact .inl rfl
    | false => rw [serve_poll x' i (by simpa [Clc.engaged, x', i] using h)]; exact .inl rfl

/-- The arbiter leaves a CLC with nothing to do alone. -/
theorem serve_free {clc : Clc} (h : clc.free) : clc.serve = clc := by
  obtain ⟨x, i, p, r⟩ := h
  exact serve_nothing x i p r

/-! ### The records of a frame, each followed up before the next (R46, R53) -/

section Merging

variable {d : Device}

/-- While a sequence runs, a following-up in a bay with an identified coach leaves the FTU alone, and the arbiter looks. -/
theorem close_running (before : Device) (p : d.cu.phase.identified = true) (r : d.ftu.read.isSome = true) :
    (close before d).ftu = d.ftu ∧ (close before d).clc = d.clc.serve := by
  obtain ⟨ftu, clc⟩ := (close_link d before (coupleNow_identified p)).serves (readStarts_running r _)
  rw [readAsked_identified p] at ftu
  exact ⟨ftu, clc⟩

/-- One record merged and followed up. -/
theorem mergeRecord_eq (p : d.cu.phase.identified = true) (r : d.ftu.read.isSome = true) (record : FaultRecord) :
    ReadsOn d (d.mergeRecord record) ∧ (d.mergeRecord record).ftu = d.ftu.merge d.conf.restrictive record
      ∧ (d.mergeRecord record).clc = d.clc.serve := by
  have running : (d.ftu.merge d.conf.restrictive record).read.isSome = true := by rw [merge_tableOnly]; exact r
  exact ⟨(ReadsOn.onFtu d _).trans (ReadsOn.close _ d p), close_running (d := d.onFtu _) d p running⟩

/-- All records merged, each followed up before the next: the FTU comes to what merging alone gives, and no other kind is
held up by a READ. -/
theorem mergeRecords_eq (p : d.cu.phase.identified = true) (r : d.ftu.read.isSome = true)
    (records : List FaultRecord) :
    ReadsOn d (records.foldl Device.mergeRecord d)
      ∧ (records.foldl Device.mergeRecord d).ftu = d.ftu.mergeAll d.conf.restrictive records
      ∧ (d.clc.engaged → (records.foldl Device.mergeRecord d).clc.engaged)
      ∧ (d.clc.free → (records.foldl Device.mergeRecord d).clc = d.clc) := by
  induction records generalizing d with
  | nil => exact ⟨ReadsOn.refl d, rfl, id, fun _ => rfl⟩
  | cons record rest ih =>
    obtain ⟨on, ftu, clc⟩ := mergeRecord_eq p r record
    have running : (d.mergeRecord record).ftu.read.isSome = true := by rw [ftu, merge_tableOnly]; exact r
    obtain ⟨on', ftu', engaged, free⟩ := ih (on.coach p) running
    refine ⟨on.trans on', ?_, fun h => engaged (by rw [clc]; exact serve_engaged h), fun h => ?_⟩
    · rw [on.core.conf, ftu] at ftu'
      exact ftu'
    · have e : (d.mergeRecord record).clc = d.clc := clc.trans (serve_free h)
      exact (free (by rw [e]; exact h)).trans e

/-- The FTU with the frame taken: its records merged, the budget reduced, the toggle flipped, the BUSY count 0 (R46). -/
def Ftu.framed (ftu : Ftu) (restrictive : BitVec 7) (read : CurrentRead) (records : List FaultRecord) : Ftu :=
  { ftu.mergeAll restrictive records with
    read := some { read with budget := read.budget - records.length }, toggle := !ftu.toggle, busyCount := 0 }

/-- A frame taken writes neither the request for a sequence nor the age timer nor the moment of the last COMPLETE ending. -/
theorem framed_keeps (ftu : Ftu) (restrictive : BitVec 7) (read : CurrentRead) (records : List FaultRecord) :
    (ftu.framed restrictive read records).reread = ftu.reread
      ∧ (ftu.framed restrictive read records).ageTimer = ftu.ageTimer
      ∧ (ftu.framed restrictive read records).lastComplete = ftu.lastComplete := by
  rw [Ftu.framed, mergeAll_tableOnly]
  exact ⟨rfl, rfl, rfl⟩

/-- An accepted frame up to what it leads to. -/
theorem acceptFrame_eq (p : d.cu.phase.identified = true) (r : d.ftu.read.isSome = true) (read : CurrentRead)
    (payload : List Byte) :
    ∃ m, d.acceptFrame read payload = m.afterFrame (recordsEnd payload) ∧ ReadsOn d m
      ∧ m.ftu = d.ftu.framed d.conf.restrictive read (recordsOf payload)
      ∧ (d.clc.engaged → m.clc.engaged) ∧ (d.clc.free → m.clc = d.clc) := by
  let counted := d.onFtu fun ftu => { ftu with busyCount := 0 }
  obtain ⟨on, ftu, engaged, free⟩ := mergeRecords_eq (d := counted) p r (recordsOf payload)
  refine ⟨((recordsOf payload).foldl Device.mergeRecord counted).onFtu fun ftu =>
    ftu.frameTaken read (recordsOf payload).length, rfl, (ReadsOn.onFtu d _).trans (on.trans (ReadsOn.onFtu _ _)), ?_,
    engaged, free⟩
  have merged : counted.ftu.mergeAll counted.conf.restrictive (recordsOf payload) =
      { d.ftu.mergeAll d.conf.restrictive (recordsOf payload) with busyCount := 0 } :=
    mergeAll_busyCount _ _ _ _
  have toggle : (d.ftu.mergeAll d.conf.restrictive (recordsOf payload)).toggle = d.ftu.toggle := by
    rw [mergeAll_tableOnly]
  rw [Device.onFtu_ftu, ftu, merged, Ftu.framed, ← toggle]
  rfl

end Merging

/-! ### What a frame leads to (R46, R48, R50) -/

section AfterFrame

variable {d : Device} {read : CurrentRead}

theorem afterFrame_end (r : d.ftu.read = some read) :
    d.afterFrame true = { d with ftu := d.ftu.endComplete d.clock } := by
  unfold Device.afterFrame
  rw [r]
  rfl

theorem afterFrame_fetch (l : d.clc.linkUp = true) (r : d.ftu.read = some read) (n : 0 < read.budget) :
    d.afterFrame false = { d with clc := { d.clc with pendingRead := some (.fetch d.ftu.toggle) } } := by
  unfold Device.afterFrame
  rw [r]
  dsimp only
  rw [if_neg (by decide), if_pos n]
  exact offerRead_up l _

theorem afterFrame_openNext (l : d.clc.linkUp = true) (r : d.ftu.read = some read) (n : read.budget = 0)
    (k : read.start < 64) : d.afterFrame false =
      { d with
        clc := { d.clc with pendingRead := some (.openRead (read.start + 32) 32) },
        ftu := { d.ftu with read := some ⟨read.start + 32, 32, false⟩ } } := by
  unfold Device.afterFrame
  rw [r]
  dsimp only
  rw [if_neg (by decide), if_neg (by omega), if_pos k]
  exact offerRead_up (by exact l) _

theorem afterFrame_over (r : d.ftu.read = some read) (n : read.budget = 0) (k : 64 ≤ read.start) :
    d.afterFrame false =
      { d with ftu := { d.ftu with read := none, busyWait := none, lastEnding := .incomplete } } := by
  unfold Device.afterFrame
  rw [r, ← endIncomplete_running (Option.isSome_of_eq_some r)]
  dsimp only
  rw [if_neg (by decide), if_neg (by omega), if_neg (by omega)]
  rfl

/-- Whatever a frame leads to, the counts and the request for a sequence stand. -/
theorem afterFrame_keeps (d : Device) (endFlag : Bool) : (d.afterFrame endFlag).ftu.busyCount = d.ftu.busyCount
    ∧ (d.afterFrame endFlag).ftu.overflow = d.ftu.overflow ∧ (d.afterFrame endFlag).ftu.reread = d.ftu.reread := by
  unfold Device.afterFrame Device.offerRead Device.onFtu Ftu.endIncomplete
  repeat' split
  all_goals exact ⟨rfl, rfl, rfl⟩

/-- Without the end flag the table stands, and what a COMPLETE ending would write (R48, R50). -/
theorem afterFrame_keepsTable (d : Device) : (d.afterFrame false).ftu.table = d.ftu.table
    ∧ (d.afterFrame false).ftu.blockingDropped = d.ftu.blockingDropped
    ∧ (d.afterFrame false).ftu.ageTimer = d.ftu.ageTimer
    ∧ (d.afterFrame false).ftu.lastComplete = d.ftu.lastComplete := by
  unfold Device.afterFrame Device.offerRead Device.onFtu Ftu.endIncomplete
  simp only [Bool.false_eq_true, if_false]
  repeat' split
  all_goals exact ⟨rfl, rfl, rfl, rfl⟩

end AfterFrame

/-! ### A sequence that goes on, and one that is over -/

section Sequence

variable {a b : Device}

/-- A BUSY count of 0 is 0 after a following-up too (R43). -/
theorem busyCount_zero (f : Followed a b) (p : a.cu.phase.identified = true) (n : a.ftu.busyCount = 0) :
    b.ftu.busyCount = 0 := by
  obtain ⟨-, link⟩ := f.uncoupled (coupleNow_identified p)
  rw [link.ftu]
  split
  · rfl
  · exact n

/-- A running sequence whose next exchange is pending: it stands, and the exchange is sent or waits (R32). -/
theorem sequence_goesOn {request : Request} (f : Followed a b) (p : a.cu.phase.identified = true)
    (r : a.ftu.read.isSome = true) (q : a.clc.pendingRead = some request) : b.ftu = a.ftu
      ∧ (a.clc.exchange = none → a.clc.pendingId = false → a.clc.pendingPoll = false →
          b.clc.exchange = some ⟨request, 1, .sending, none⟩ ∧ b.clc.pendingRead = none)
      ∧ (a.clc.engaged → b.clc.pendingRead = some request) := by
  obtain ⟨-, link⟩ := f.uncoupled (coupleNow_identified p)
  have n := readStarts_running r b.cu.phase
  obtain ⟨ftu, clc⟩ := link.serves n
  rw [readAsked_identified p] at ftu
  refine ⟨ftu, fun x i k => link.read n x i k q, fun h => ?_⟩
  rw [clc, serve_pendingRead h, q]

/-- A sequence that is over leaves no read, or a new one where it is asked for again (R43, R50). -/
theorem sequence_over (f : Followed a b) (p : a.cu.phase.identified = true) (r : a.ftu.read = none)
    (l : a.clc.linkUp = true) :
    (a.ftu.reread = false → b.ftu.read = none ∧ (a.clc.free → b.clc.exchange = none))
      ∧ (a.ftu.reread = true → b.ftu.read = some ⟨0, 32, false⟩ ∧ b.ftu.reread = false) := by
  obtain ⟨stays, link⟩ := f.uncoupled (coupleNow_identified p)
  refine ⟨fun k => ?_, fun k => ?_⟩
  · have n : a.readStarts b.cu.phase = false := by simp [Device.readStarts, readAsked_identified p, k]
    obtain ⟨ftu, clc⟩ := link.serves n
    rw [ftu, clc]
    exact ⟨r, fun h => by rw [serve_free h]; exact h.1⟩
  · obtain ⟨ftu, -⟩ := link.begins (readStarts_of_asked stays p k r l)
    rw [ftu]
    exact ⟨rfl, rfl⟩

end Sequence

/-! ### The obligation -/

/-- A RECORDS frame with the expected toggle is accepted (R46). -/
theorem readRecords_accepted {d : Device} {read : CurrentRead} {payload : List Byte} (r : d.ftu.read = some read)
    (n : recordsToggle payload = d.ftu.toggle) : d.readRecords payload = d.acceptFrame read payload := by
  unfold Device.readRecords
  rw [r]
  exact if_pos n

/-- What RECORDS leaves to be followed up: a station `m` with the frame taken, and what the frame leads to. -/
theorem exec_records {s : State} {x : Exchange} {toggle : Bool} {payload : List Byte} {read : CurrentRead}
    (p : s.dev.cu.phase.identified = true) (e : s.dev.clc.exchange = some x) (h : x.step = .receiving)
    (r : x.request = .fetch toggle) (l : payload.length = 1 ∨ payload.length = 9 ∨ payload.length = 17)
    (k : s.dev.ftu.read = some read) (n : recordsToggle payload = s.dev.ftu.toggle) :
    ∃ m, exec (.records payload) s = .next { s with dev := close s.dev (m.afterFrame (recordsEnd payload)) }
      ∧ ReadsOn s.dev.exchangeOk m
      ∧ m.ftu = s.dev.ftu.framed s.dev.conf.restrictive read (recordsOf payload)
      ∧ (s.dev.exchangeOk.clc.engaged → m.clc.engaged)
      ∧ (s.dev.exchangeOk.clc.free → m.clc = s.dev.exchangeOk.clc) := by
  have taken := takeReply_accepted (kind := .records) e h ((recordsLength_iff _).2 l) (by rw [r]; rfl)
    fun _ d => d.readRecords payload
  have accepted := readRecords_accepted (d := s.dev.exchangeOk) k n
  obtain ⟨m, led, rest⟩ := acceptFrame_eq (d := s.dev.exchangeOk) p (Option.isSome_of_eq_some k) read payload
  exact ⟨m, exec_next rfl (congrArg (close s.dev) (taken.trans (accepted.trans led))), rest⟩

/-- Settles O21: the frame is taken (`acceptFrame_eq`), and each way on is followed up with the sequence running
(`sequence_goesOn`) or over (`sequence_over`). -/
theorem recordsFrameIsMerged : Obligations.RecordsFrameIsMerged := by
  intro s x toggle payload read merged p e h r l k n rfl
  obtain ⟨m, x', on, ftu, engaged, free⟩ := exec_records p e h r l k n
  have f := followed_close s.dev (m.afterFrame (recordsEnd payload))
  have on' := (on.trans (ReadsOn.afterFrame m (recordsEnd payload))).trans
    (ReadsOn.close _ s.dev ((ReadsOn.afterFrame m _).coach (on.coach p)))
  generalize close s.dev _ = t at x' f on'
  have pm : m.cu.phase.identified = true := on.coach p
  have pa : (m.afterFrame (recordsEnd payload)).cu.phase.identified = true := (ReadsOn.afterFrame m _).coach pm
  obtain ⟨stays, -⟩ := f.uncoupled (coupleNow_identified pa)
  obtain ⟨dropped, overflow, ending, complete, age⟩ := stays.ftu
  obtain ⟨count', overflow', reread'⟩ := afterFrame_keeps m (recordsEnd payload)
  obtain ⟨table', dropped', age', complete'⟩ := afterFrame_keepsTable m
  obtain ⟨reread, ageTimer, lastComplete⟩ := framed_keeps s.dev.ftu s.dev.conf.restrictive read (recordsOf payload)
  rw [← ftu] at reread ageTimer lastComplete
  have up : m.clc.linkUp = true := on.link
  have run : m.ftu.read = some { read with budget := read.budget - (recordsOf payload).length } := by rw [ftu]; rfl
  have toggle : m.ftu.toggle = !s.dev.ftu.toggle := by rw [ftu]; rfl
  have idle : s.dev.clc.pendingId = false → s.dev.clc.pendingPoll = false → s.dev.clc.pendingRead = none →
      m.clc = s.dev.exchangeOk.clc := fun i q v => free ⟨rfl, i, q, v⟩
  have busy : s.dev.clc.pendingId = true ∨ s.dev.clc.pendingPoll = true → m.clc.engaged := fun w => engaged (.inr w)
  have quiet : s.dev.clc.pendingId = false → s.dev.clc.pendingPoll = false → s.dev.clc.pendingRead = none →
      m.clc.free := fun i q v => by rw [idle i q v]; exact ⟨rfl, i, q, v⟩
  refine ⟨_, x', rfl, on'.core.clock, on'.link, busyCount_zero f pa (count'.trans (by rw [ftu]; rfl)),
    overflow.trans (overflow'.trans (by rw [ftu]; rfl)), fun flag => ?_, fun flag => ?_, fun ended again => ?_,
    on'.identity, by rw [on'.core.sc]; rfl, on'.core.plan.1, on'.energy, by rw [on'.core.lu]; rfl⟩
  · rw [flag, afterFrame_end run] at f stays ending complete dropped age
    refine ⟨stays.records.trans ?_, ending, complete.trans ?_, dropped.trans ?_, age.trans ?_, fun once => ?_⟩
    · show (m.ftu.table.filter _).map _ = _
      rw [ftu]
      rfl
    · exact congrArg some on.core.clock
    · show m.ftu.droppedInSequence = _
      rw [ftu]
      rfl
    · exact congrArg (fun now => some (now + 180000000)) on.core.clock
    · obtain ⟨none, free⟩ := (sequence_over f pm rfl up).1 (reread.trans once)
      exact ⟨none, fun i q v => free (quiet i q v)⟩
  · rw [flag] at f stays ending complete dropped age
    refine ⟨stays.records.trans (by rw [table', ftu]; rfl), dropped.trans (dropped'.trans (by rw [ftu]; rfl)),
      age.trans (age'.trans ageTimer), fun left => ?_, fun used low => ?_, fun used high => ?_⟩
    · rw [afterFrame_fetch up run left] at f
      obtain ⟨stands, sent, waits⟩ := sequence_goesOn f pm (Option.isSome_of_eq_some run) rfl
      rw [toggle] at sent waits
      exact ⟨(congrArg Ftu.read stands).trans run, (congrArg Ftu.toggle stands).trans toggle,
        fun i q v => sent (quiet i q v).1 (quiet i q v).2.1 (quiet i q v).2.2.1, fun w => waits (busy w)⟩
    · rw [afterFrame_openNext up run used low] at f
      obtain ⟨stands, sent, waits⟩ := sequence_goesOn f pm rfl rfl
      exact ⟨congrArg Ftu.read stands,
        fun i q v => sent (quiet i q v).1 (quiet i q v).2.1 (quiet i q v).2.2.1, fun w => waits (busy w)⟩
    · rw [afterFrame_over run used high] at f ending
      refine ⟨ending, complete.trans (complete'.trans lastComplete), fun once => ?_⟩
      obtain ⟨none, free⟩ := (sequence_over f pm rfl up).1 (reread.trans once)
      exact ⟨none, fun i q v => free (quiet i q v)⟩
  · refine (sequence_over f pa ?_ ((ReadsOn.afterFrame m _).link.trans up)).2 (reread'.trans (reread.trans again))
    cases flag : recordsEnd payload with
    | true => rw [afterFrame_end run]; rfl
    | false =>
      obtain ⟨used, high⟩ := ended.resolve_left (by simp [flag])
      rw [afterFrame_over run used high]

end Sys2Proof.Machine
end

section
/-! THEOREMS. The bounds of tables and counters (`not_tablesCountersAndContestStayWithinBounds`): the statement fails as
it stands, in a state whose lamp pass has met a count that no channel can have. -/

namespace Sys2Proof.Machine

/-- A station in RUN with its red signal lamp fitted, whose full pass began at this moment, at which a pass has ended,
with a signal pass pending beside it (R70). What the full pass is said to have met is a count of 7 on that lamp. -/
def metBeyondLimit : Device :=
  { inRun with
    ltu := { Ltu.reset with
      channels := Ltu.offChannels.map fun c => if c.num = 17 then { c with status := .initial } else c,
      pendingSignal := true, pass := some ⟨.full, [17], [17]⟩, endedAt := some 0,
      met := ⟨[], [{ Channel.off 17 with retries := 7 }], none⟩ } }

/-- The full pass gives way to the signal pass, and the count it met is back in the Lamp Table (`Ltu.unbegin`). -/
theorem metBeyondLimit_restored : ∃ t, step ⟨[.measuredPowerChange 0], metBeyondLimit⟩ = .next t
    ∧ ∃ c ∈ t.dev.ltu.channels, 6 < c.retries :=
  ⟨_, rfl, by decide⟩

/-- Refutes O55: a pass that gives way to one pending beside it puts the counts back that it met at its beginning, and the
statement bounds the counts of the channels alone (`Ltu.tableOk`), not those kept in `Ltu.met`. It leaves out that these
stand within 6 as well, as they do in a pass that the station has begun itself from a table within its bounds
(`Device.servePass`). The clauses on the Fault Table, the counters, the queue and the contest are not touched. -/
theorem not_tablesCountersAndContestStayWithinBounds : ¬ Obligations.TablesCountersAndContestStayWithinBounds := by
  intro h
  obtain ⟨t, x, c, mem, beyond⟩ := metBeyondLimit_restored
  obtain ⟨lamps, -⟩ := h _ t x
  have met : metBeyondLimit.ltu.tableOk := ⟨by decide, by decide⟩
  obtain ⟨-, counts⟩ := lamps met
  exact absurd (counts c mem) (Nat.not_le.2 beyond)

end Sys2Proof.Machine
end

section
/-! THEOREMS. The Fault Table: merging a record (`mergeUpdatesAppendsEvictsOrDrops`), the candidate of eviction
(`evictionCandidateIsTheLowest`), and the conditions that the table hands on (`faultTableHandsOnItsConditions`). -/

namespace Sys2Proof.Machine

/-! ### Merging a record (R53, R55) -/

/-- Two records name the same fault by module and code (R53). -/
theorem sameFault_iff (a b : FaultRecord) : a.sameFault b = true ↔ a.module = b.module ∧ a.code = b.code := by
  simp [FaultRecord.sameFault]

section Merge

variable (restrictive : BitVec 7) (ftu : Ftu) (r : FaultRecord)

theorem merge_known (h : ∃ e ∈ ftu.table, e.record.sameFault r = true) : ftu.merge restrictive r =
    { ftu with table := ftu.table.map fun e => if e.record.sameFault r then ⟨r, true⟩ else e } :=
  if_pos (List.any_eq_true.2 h)

theorem merge_appended (h : ∀ e ∈ ftu.table, ¬ e.record.sameFault r = true) (n : ftu.table.length < 32) :
    ftu.merge restrictive r = { ftu with table := ftu.table ++ [⟨r, true⟩] } :=
  (if_neg (Bool.eq_false_iff.1 (List.any_eq_false.2 h))).trans (if_pos n)

theorem merge_full (h : ∀ e ∈ ftu.table, ¬ e.record.sameFault r = true) (n : 32 ≤ ftu.table.length) :
    ftu.merge restrictive r = ftu.meetFull restrictive r :=
  (if_neg (Bool.eq_false_iff.1 (List.any_eq_false.2 h))).trans (if_neg (Nat.not_lt.2 n))

variable {restrictive ftu r} {position : Nat} {candidate : FaultEntry}

theorem meetFull_evicts (c : evictionCandidate restrictive ftu.table = some (position, candidate))
    (h : r.higher restrictive candidate.record = true) : ftu.meetFull restrictive r =
      { ftu with table := ftu.table.eraseIdx position ++ [⟨r, true⟩] } := by
  unfold Ftu.meetFull
  rw [c]
  exact if_pos h

theorem meetFull_drops (c : evictionCandidate restrictive ftu.table = some (position, candidate))
    (h : r.higher restrictive candidate.record = false) : ftu.meetFull restrictive r =
      { ftu with
        overflow := countUp Config.overflowMax ftu.overflow,
        blockingDropped := ftu.blockingDropped || r.blocking restrictive,
        droppedInSequence := ftu.droppedInSequence || r.blocking restrictive } := by
  unfold Ftu.meetFull
  rw [c]
  exact if_neg (Bool.eq_false_iff.1 h)

end Merge

/-- Settles O23: the three branches of `Ftu.merge`, and those of `Ftu.meetFull` for a full table. -/
theorem mergeUpdatesAppendsEvictsOrDrops : Obligations.MergeUpdatesAppendsEvictsOrDrops := by
  intro restrictive ftu r
  simp only [← sameFault_iff]
  refine ⟨merge_known restrictive ftu r, fun new => ⟨merge_appended restrictive ftu r new, fun n e full candidate => ?_⟩⟩
  rw [merge_full restrictive ftu r new full]
  exact ⟨meetFull_evicts candidate, meetFull_drops candidate⟩

/-! ### The candidate of eviction (R54) -/

/-- What eviction compares of a record: its rank, and after that its severity (R54). -/
def FaultRecord.standing (restrictive : BitVec 7) (r : FaultRecord) : Nat ×ₗ Nat :=
  toLex (r.rank restrictive, r.severity)

theorem higher_iff_standing (restrictive : BitVec 7) (a b : FaultRecord) :
    a.higher restrictive b = true ↔ b.standing restrictive < a.standing restrictive := by
  simp [FaultRecord.higher, FaultRecord.standing, Prod.Lex.toLex_lt_toLex, eq_comm (a := b.rank restrictive)]

/-- The entry `best.2` at position `best.1` stands lowest in a table, and none before it as low (R54). -/
structure IsCandidate (restrictive : BitVec 7) (table : List FaultEntry) (best : Nat × FaultEntry) : Prop where
  here : table[best.1]? = some best.2
  lowest : ∀ f ∈ table, best.2.record.standing restrictive ≤ f.record.standing restrictive
  first : ∀ (m : Nat) (f : FaultEntry), m < best.1 → table[m]? = some f →
    best.2.record.standing restrictive < f.record.standing restrictive

namespace IsCandidate

variable {restrictive : BitVec 7} {table : List FaultEntry} {best : Nat × FaultEntry} (e : FaultEntry)

theorem single : IsCandidate restrictive [e] (0, e) where
  here := rfl
  lowest := by simp
  first := nofun

/-- A lower entry takes the place of the candidate. -/
theorem replaced (h : IsCandidate restrictive table best)
    (l : e.record.standing restrictive < best.2.record.standing restrictive) :
    IsCandidate restrictive (table ++ [e]) (table.length, e) where
  here := by simp
  lowest f mem := by
    rcases List.mem_append.1 mem with mem | mem
    · exact (l.trans_le (h.lowest f mem)).le
    · rw [List.mem_singleton.1 mem]
  first m f lt at_ := by
    rw [List.getElem?_append_left lt] at at_
    exact l.trans_le (h.lowest f (List.mem_of_getElem? at_))

/-- An entry that stands as high as the candidate, or higher, leaves it. -/
theorem kept (h : IsCandidate restrictive table best)
    (l : best.2.record.standing restrictive ≤ e.record.standing restrictive) :
    IsCandidate restrictive (table ++ [e]) best := by
  obtain ⟨inside, -⟩ := List.getElem?_eq_some_iff.1 h.here
  exact {
    here := by rw [List.getElem?_append_left inside, h.here]
    lowest := fun f mem => by
      rcases List.mem_append.1 mem with mem | mem
      · exact h.lowest f mem
      · rwa [List.mem_singleton.1 mem]
    first := fun m f lt at_ => by
      rw [List.getElem?_append_left (lt.trans inside)] at at_
      exact h.first m f lt at_ }

end IsCandidate

/-- The search carries the candidate of the entries behind it on to the whole table. -/
theorem candidateFrom_isCandidate {restrictive : BitVec 7} (rest : List FaultEntry) {table : List FaultEntry}
    {best : Nat × FaultEntry} (h : IsCandidate restrictive table best) :
    IsCandidate restrictive (table ++ rest) (candidateFrom restrictive rest table.length best) := by
  induction rest generalizing table best with
  | nil => simpa [candidateFrom] using h
  | cons e rest ih =>
    rw [List.append_cons, candidateFrom]
    have n : table.length + 1 = (table ++ [e]).length := by simp
    rw [n]
    split
    · next l => exact ih (h.replaced e ((higher_iff_standing ..).1 l))
    · next l => exact ih (h.kept e (not_lt.1 fun k => l ((higher_iff_standing ..).2 k)))

theorem evictionCandidate_isCandidate (restrictive : BitVec 7) {table : List FaultEntry} (h : table ≠ []) :
    ∃ best, evictionCandidate restrictive table = some best ∧ IsCandidate restrictive table best := by
  cases table with
  | nil => contradiction
  | cons e rest => exact ⟨_, rfl, candidateFrom_isCandidate rest (.single e)⟩

/-- Settles O24: the search keeps a candidate of the entries it has passed (`candidateFrom_isCandidate`). -/
theorem evictionCandidateIsTheLowest : Obligations.EvictionCandidateIsTheLowest := by
  refine ⟨fun restrictive r => ?_, fun restrictive a b => ?_, fun restrictive table filled => ?_⟩
  · simp +contextual [FaultRecord.rank]
  · simp [FaultRecord.higher]
  · obtain ⟨⟨n, e⟩, found, here, lowest, first⟩ := evictionCandidate_isCandidate restrictive filled
    simp only [FaultRecord.standing, Prod.Lex.toLex_le_toLex, Prod.Lex.toLex_lt_toLex] at lowest first
    refine ⟨n, e, found, here, fun f mem => ?_, fun f mem same => ?_, fun m f before at_ => ?_⟩
    · have := lowest f mem
      omega
    · have := lowest f mem
      omega
    · have := first m f before at_
      omega

/-! ### What the table hands on (R56 to R60) -/

theorem blocking_iff (restrictive : BitVec 7) (r : FaultRecord) : r.blocking restrictive = true ↔
    r.active = true ∧ (r.severity = 3 ∨ (r.severity = 2 ∧ restrictive.getLsbD r.cls.code = true)) := by
  simp [FaultRecord.blocking]

theorem faultStops_iff (d : Device) : d.faultStops = true ↔
    (∃ e ∈ d.ftu.table, e.record.blocking d.conf.restrictive = true) ∨ d.ftu.blockingDropped = true := by
  simp [Device.faultStops]

theorem heatLockout_iff (ftu : Ftu) : ftu.heatLockout = true ↔
    ∃ e ∈ ftu.table, e.record.active = true ∧ e.record.cls = .heater ∧ 2 ≤ e.record.severity := by
  simp [Ftu.heatLockout, and_assoc]

theorem corroborates_iff (ftu : Ftu) (channel : Nat) : ftu.corroborates channel = true ↔
    ∃ e ∈ ftu.table, e.record.active = true ∧ e.record.cls = .lighting ∧ e.record.hint = some channel := by
  simp [Ftu.corroborates, and_assoc]

/-- Settles O25: each condition by its own lemma, the blocks in the phases with a coach (`withCoach_iff`). -/
theorem faultTableHandsOnItsConditions : Obligations.FaultTableHandsOnItsConditions := by
  refine ⟨blocking_iff, faultStops_iff, heatLockout_iff, corroborates_iff, fun d => ⟨?_, ?_⟩⟩
  · rw [← faultStops_iff, ← withCoach_iff, ← Bool.and_eq_true]
    rfl
  · rw [← withCoach_iff, ← Option.isNone_iff_eq_none, ← Bool.and_eq_true]
    rfl

end Sys2Proof.Machine
end

section
/-! SUPPORT. The reply to a QUERY: which offers its LIST frames make (R165 to R167), and what a QUERY accepted leaves. -/

namespace Sys2Proof.Machine

/-! ### Offers (R167) -/

section Offers

variable {d : Device} {reply : Reply}

theorem offerReply_none (n : Nat) (r : d.lu.reply = none) : d.offerReply n = d := by
  cases n with
  | zero => rfl
  | succ n => rw [Device.offerReply, r]

/-- With both places taken the reply waits. -/
theorem offerReply_waits (n : Nat) (l : 2 ≤ d.lu.listsHeld) : d.offerReply n = d := by
  cases n with
  | zero => rfl
  | succ n =>
    unfold Device.offerReply
    split
    · rfl
    · split
      · rfl
      · exact if_pos l

variable (n : Nat) (r : d.lu.reply = some reply) (m : d.sc.mode.speaks = true) (l : d.lu.listsHeld < 2)

include r m l

/-- With a place free the reply has its next frame accepted: the first whatever is left, a later one where entries
are. -/
theorem offerReply_accepted (k : reply.offered = 0 ∨ reply.next < d.subjectTotal reply.subject) :
    d.offerReply (n + 1) = (d.acceptList reply).offerReply n := by
  rw [Device.offerReply, r]
  dsimp only
  rw [if_neg (by simp [m]), if_neg (show ¬ Config.listPlaces ≤ _ from Nat.not_le.2 l), if_neg (by omega)]

/-- With no entries left the reply is over. -/
theorem offerReply_over (o : reply.offered ≠ 0) (k : d.subjectTotal reply.subject ≤ reply.next) :
    d.offerReply (n + 1) = d.onLu fun lu => { lu with reply := none } := by
  rw [Device.offerReply, r]
  dsimp only
  rw [if_neg (by simp [m]), if_neg (show ¬ Config.listPlaces ≤ _ from Nat.not_le.2 l), if_pos ⟨o, k⟩]

end Offers

/-! ### A station that replies -/

/-- The station that has accepted a QUERY, with the LIST frames queued since and what is left of the reply. -/
def Device.replying (d : Device) (queued : List ListFrame) (reply : Option Reply) : Device :=
  { d.heard with
    lu := { d.heard.lu with lineEvent := some d.clock, lists := d.lu.lists ++ queued, reply := reply } }

section Replying

variable (d : Device) (queued : List ListFrame) (rest : Option Reply) (reply : Reply)

theorem replying_reply : (d.replying queued rest).lu.reply = rest := rfl

/-- With no frame queued since, the transmit queue is as it was. -/
theorem replying_nil : d.replying [] rest =
    { d.heard with lu := { d.heard.lu with lineEvent := some d.clock, reply := rest } } := by
  unfold Device.replying
  rw [List.append_nil]
  rfl

theorem replying_listsHeld : (d.replying queued rest).lu.listsHeld = d.lu.listsHeld + queued.length := by
  show (d.lu.lists ++ queued).length + _ = d.lu.lists.length + _ + queued.length
  rw [List.length_append, Nat.add_right_comm]
  rfl

/-- Neither the line activity nor the queue shows in an entry. -/
theorem replying_subjectEntries (subject : Subject) :
    (d.replying queued rest).subjectEntries subject = d.subjectEntries subject := by
  cases subject <;> rfl

theorem replying_subjectTotal (subject : Subject) :
    (d.replying queued rest).subjectTotal subject = d.subjectTotal subject :=
  congrArg List.length (replying_subjectEntries d queued rest subject)

theorem replying_buildList : (d.replying queued rest).buildList reply = d.buildList reply := by
  have summary : (d.replying queued rest).listSummary reply.subject = d.listSummary reply.subject := by
    cases reply.subject <;> rfl
  unfold Device.buildList
  rw [replying_subjectTotal, replying_subjectEntries, summary]

/-- What is left of a reply when its next frame has been accepted (R167). -/
def Device.replyAfter (d : Device) (reply : Reply) : Option Reply :=
  if d.listCount reply.subject reply.next = 0 then none
  else some { reply with next := reply.next + d.listCount reply.subject reply.next, offered := reply.offered + 1 }

theorem replying_acceptList : (d.replying queued rest).acceptList reply =
    d.replying (queued ++ [d.buildList reply]) (d.replyAfter reply) := by
  have count : (d.replying queued rest).listCount reply.subject reply.next = d.listCount reply.subject reply.next := by
    unfold Device.listCount
    rw [replying_subjectTotal]
  unfold Device.acceptList Device.replyAfter
  dsimp only
  rw [count, replying_buildList]
  simp only [Device.replying, Device.onLu, List.append_assoc]

/-- The offers of a station with a place free and a frame to offer. -/
theorem replying_accepted (n : Nat) (m : d.sc.mode.speaks = true) (l : d.lu.listsHeld + queued.length < 2)
    (k : reply.offered = 0 ∨ reply.next < d.subjectTotal reply.subject) :
    (d.replying queued (some reply)).offerReply (n + 1) =
      (d.replying (queued ++ [d.buildList reply]) (d.replyAfter reply)).offerReply n := by
  rw [offerReply_accepted n (replying_reply d queued (some reply)) m (by rwa [replying_listsHeld])
    (by rwa [replying_subjectTotal]), replying_acceptList]

/-- The offers of a station with no place free. -/
theorem replying_waits (n : Nat) (l : 2 ≤ d.lu.listsHeld + queued.length) :
    (d.replying queued rest).offerReply n = d.replying queued rest :=
  offerReply_waits n (by rwa [replying_listsHeld])

/-- The offers of a station with a place free and no entry left to offer. -/
theorem replying_over (n : Nat) (m : d.sc.mode.speaks = true) (l : d.lu.listsHeld + queued.length < 2)
    (o : reply.offered ≠ 0) (k : d.subjectTotal reply.subject ≤ reply.next) :
    (d.replying queued (some reply)).offerReply (n + 1) = d.replying queued none :=
  offerReply_over n rfl m (by rwa [replying_listsHeld]) o (by rwa [replying_subjectTotal])

end Replying

/-! ### A QUERY accepted (R165, R166) -/

section StartReply

variable (d : Device) (subject : Subject) (requester start : Nat)

theorem startReply_silent (m : d.sc.mode.speaks = false) : d.heard.startReply subject requester start =
    { d.heard with lu := { d.heard.lu with lineEvent := some d.clock, reply := none } } :=
  if_neg (Bool.eq_false_iff.1 m)

variable (m : d.sc.mode.speaks = true)

include m

theorem startReply_speaks : d.heard.startReply subject requester start =
    (d.replying [] (some ⟨subject, requester, start, 0⟩)).offerReply 3 := by
  rw [replying_nil]
  exact if_pos m

/-- Two LIST frames are held. -/
theorem startReply_held (l : 2 ≤ d.lu.listsHeld) : d.heard.startReply subject requester start =
    { d.heard with
      lu := { d.heard.lu with lineEvent := some d.clock, reply := some ⟨subject, requester, start, 0⟩ } } := by
  rw [startReply_speaks d subject requester start m, replying_waits d _ _ 3 (by simpa using l), replying_nil]

/-- One LIST frame is held: the first of the reply is queued. -/
theorem startReply_first (l : d.lu.listsHeld = 1) : d.heard.startReply subject requester start =
    d.replying [d.buildList ⟨subject, requester, start, 0⟩] (d.replyAfter ⟨subject, requester, start, 0⟩) := by
  rw [startReply_speaks d subject requester start m, replying_accepted d _ _ 2 m (by simp [l]) (.inl rfl)]
  exact replying_waits d _ _ 2 (by simp [l])

/-- None is held, and the first LIST carries all entries from the start index on. -/
theorem startReply_whole (l : d.lu.listsHeld = 0)
    (k : d.subjectTotal subject ≤ start + d.listCount subject start) : d.heard.startReply subject requester start =
      d.replying [d.buildList ⟨subject, requester, start, 0⟩] none := by
  rw [startReply_speaks d subject requester start m, replying_accepted d _ _ 2 m (by simp [l]) (.inl rfl)]
  unfold Device.replyAfter
  split
  · exact offerReply_none 2 rfl
  · exact replying_over d _ _ 1 m (by simp [l]) (Nat.succ_ne_zero 0) k

/-- None is held, and the second LIST is queued as well. -/
theorem startReply_second (l : d.lu.listsHeld = 0) (k : start + d.listCount subject start < d.subjectTotal subject) :
    d.heard.startReply subject requester start =
      d.replying
        [d.buildList ⟨subject, requester, start, 0⟩,
          d.buildList ⟨subject, requester, start + d.listCount subject start, 1⟩]
        (some ⟨subject, requester,
          start + d.listCount subject start + d.listCount subject (start + d.listCount subject start), 2⟩) := by
  have more : ∀ next, next < d.subjectTotal subject → d.listCount subject next ≠ 0 := by
    intro next left
    unfold Device.listCount
    cases subject <;> simp only [Subject.limit] <;> omega
  rw [startReply_speaks d subject requester start m, replying_accepted d _ _ 2 m (by simp [l]) (.inl rfl),
    Device.replyAfter, if_neg (more start (by omega)), replying_accepted d _ _ 1 m (by simp [l]) (.inr k),
    Device.replyAfter, if_neg (more _ k)]
  exact replying_waits d _ _ 1 (by simp [l])

end StartReply

/-- The four QUERYs of a subject are received alike. -/
theorem exec_query {c : Instr} {sender dest start : Byte} {subject : Subject}
    (h : (c = .queryLamps sender dest start ∧ subject = .lamps)
      ∨ (c = .queryFaults sender dest start ∧ subject = .faults)
      ∨ (c = .queryHeat sender dest start ∧ subject = .heat)
      ∨ (c = .queryLine sender dest start ∧ subject = .line)) (s : State) :
    exec c s = s.did fun d => d.queryFrame sender dest fun d => d.startReply subject sender.toNat start.toNat := by
  rcases h with ⟨rfl, rfl⟩ | ⟨rfl, rfl⟩ | ⟨rfl, rfl⟩ | ⟨rfl, rfl⟩ <;> rfl

/-- A QUERY obeyed completes with what the start of its reply leaves. -/
theorem query_completes {c : Instr} {s : State} {sender dest : Byte} {accept : Device → Device} {after : Device}
    (o : s.dev.obeysQuery sender dest) (h : exec c s = s.did fun d => d.queryFrame sender dest accept)
    (k : accept s.dev.heard = after) : Completes c s after :=
  completes_of_close (before := s.dev) (exec_next h (by rw [queryFrame_obeys o, k]))

end Sys2Proof.Machine
end

section
/-! THEOREMS. The fields of a LIST where Tables 65 and 66 put them, and with them the replies to QUERYs
(`queriesStartTheirReply`). -/

namespace Sys2Proof.Machine

/-! ### What a field carries (R169) -/

@[simp] theorem byteOf_toNat (n : Nat) : (byteOf n).toNat = n % 256 := BitVec.toNat_ofNat n 8

/-- A two-byte field carries what it can hold. -/
theorem word_carries {n : Nat} (h : n ≤ 65535) : n % 256 + 256 * (n / 256 % 256) = n := by omega

/-- A three-byte field carries what it can hold. -/
theorem triple_carries {n : Nat} (h : n ≤ 16777215) :
    n % 256 + 256 * (n / 256 % 256) + 65536 * (n / 65536 % 256) = n := by omega

theorem signedByteOf_toInt {x : Int} (l : -128 ≤ x) (u : x ≤ 127) : (signedByteOf x).toInt = x := by
  rw [signedByteOf, BitVec.toInt_ofInt, Int.bmod_eq_of_le (by omega) (by omega)]

theorem signedByteOf_toNat {x : Int} (l : 0 ≤ x) (u : x ≤ 255) : ((signedByteOf x).toNat : Int) = x := by
  rw [signedByteOf, BitVec.toNat_ofInt]
  omega

/-- A signed two-byte field is read back as it was written. -/
theorem signedWord_carries {x : Int} {n : Nat} (l : -32768 ≤ x) (u : x ≤ 32767) (h : n = (BitVec.ofInt 16 x).toNat) :
    (if n < 32768 then (n : Int) else (n : Int) - 65536) = x := by
  rw [BitVec.toNat_ofInt] at h
  split <;> omega

theorem flagAt_eq (n : Nat) (b : Bool) : flagAt n b = 2 ^ n * b.toNat := by
  cases b <;> simp [flagAt]

/-- A field of a byte with the value `n`. -/
theorem bitsAt_of {payload : List Byte} {i low width n m : Nat} (h : byteAt payload i = n)
    (k : n / 2 ^ low % 2 ^ width = m) : bitsAt payload i low width = m := by
  rw [bitsAt, h, k]

/-- A flag in a byte with the value `n`. -/
theorem bitAt_of {payload : List Byte} {i low n : Nat} {b : Bool} (h : byteAt payload i = n)
    (k : n / 2 ^ low % 2 ^ 1 = b.toNat) : bitAt payload i low = b := by
  rw [bitAt, bitsAt_of h k]
  cases b <;> rfl

/-! ### The codes fit their fields (Table 62) -/

theorem LampStatus.code_le (x : LampStatus) : x.code ≤ 6 := by cases x <;> decide

theorem FaultClass.code_le (x : FaultClass) : x.code ≤ 6 := by cases x <;> decide

theorem ReadEnding.code_le (x : ReadEnding) : x.code ≤ 3 := by cases x <;> decide

theorem TcState.code_le (x : TcState) : x.code ≤ 3 := by cases x <;> decide

theorem Subject.code_le (x : Subject) : x.code ≤ 4 := by cases x <;> decide

/-! ### The entries (Table 66) -/

/-- A LAMPS entry (R82). -/
theorem channel_fields (c : Channel) (v : c.lastV ≤ 65535) (i : c.lastI ≤ 255) (r : c.retries ≤ 6) :
    bitsAt c.entryBytes 0 0 3 = c.status.code ∧ bitAt c.entryBytes 0 4 = c.masked
      ∧ bitAt c.entryBytes 0 5 = c.coachReported ∧ bitAt c.entryBytes 0 6 = c.confirmed
      ∧ bitAt c.entryBytes 0 7 = c.isFinal ∧ wordAt c.entryBytes 1 = c.lastV ∧ byteAt c.entryBytes 3 = c.lastI
      ∧ byteAt c.entryBytes 4 = c.retries := by
  have status := c.status.code_le
  have masked := c.masked.toNat_le
  have reported := c.coachReported.toNat_le
  have confirmed := c.confirmed.toNat_le
  have final := c.isFinal.toNat_le
  have first : byteAt c.entryBytes 0 = c.status.code + 16 * c.masked.toNat + 32 * c.coachReported.toNat
      + 64 * c.confirmed.toNat + 128 * c.isFinal.toNat := by
    simp only [Channel.entryBytes, byteAt, flagAt_eq, List.cons_append, List.getD_cons_zero, byteOf_toNat]
    omega
  exact ⟨bitsAt_of first (by omega), bitAt_of first (by omega), bitAt_of first (by omega), bitAt_of first (by omega),
    bitAt_of first (by omega), word_carries v, Nat.mod_eq_of_lt (by omega), Nat.mod_eq_of_lt (by omega)⟩

/-- A FAULTS entry (R61). -/
theorem fault_fields (restrictive : BitVec 7) (f : FaultEntry) (m : f.record.module ≤ 63) (s : f.record.severity ≤ 3)
    (c : f.record.code ≤ 65535) (o : f.record.occurrences ≤ 255) (h : ∀ n, f.record.hint = some n → n ≤ 16) :
    bitsAt (f.entryBytes restrictive) 0 0 6 = f.record.module
      ∧ bitsAt (f.entryBytes restrictive) 0 6 2 = f.record.severity
      ∧ bitsAt (f.entryBytes restrictive) 1 0 3 = f.record.cls.code
      ∧ bitAt (f.entryBytes restrictive) 1 3 = f.record.active
      ∧ bitAt (f.entryBytes restrictive) 1 4 = f.record.blocking restrictive
      ∧ bitAt (f.entryBytes restrictive) 1 5 = f.seen ∧ wordAt (f.entryBytes restrictive) 2 = f.record.code
      ∧ byteAt (f.entryBytes restrictive) 4 = f.record.occurrences
      ∧ byteAt (f.entryBytes restrictive) 5 = f.record.hint.getD 0 := by
  have cls := f.record.cls.code_le
  have active := f.record.active.toNat_le
  have blocking := (f.record.blocking restrictive).toNat_le
  have seen := f.seen.toNat_le
  have hint : f.record.hint.getD 0 ≤ 16 := by
    cases k : f.record.hint with
    | none => exact Nat.zero_le 16
    | some n => exact h n k
  have first : byteAt (f.entryBytes restrictive) 0 = f.record.module + 64 * f.record.severity :=
    Nat.mod_eq_of_lt (by omega)
  have second : byteAt (f.entryBytes restrictive) 1 = f.record.cls.code + 8 * f.record.active.toNat
      + 16 * (f.record.blocking restrictive).toNat + 32 * f.seen.toNat := by
    simp only [FaultEntry.entryBytes, byteAt, flagAt_eq, List.cons_append, List.getD_cons_succ, List.getD_cons_zero,
      byteOf_toNat]
    omega
  exact ⟨bitsAt_of first (by omega), bitsAt_of first (by omega), bitsAt_of second (by omega),
    bitAt_of second (by omega), bitAt_of second (by omega), bitAt_of second (by omega), word_carries c,
    Nat.mod_eq_of_lt (by omega), Nat.mod_eq_of_lt (by omega)⟩

/-- The LINE entry (R153). -/
theorem stats_fields (st : Stats) (f : st.format ≤ 65535) (g : st.gap ≤ 65535) (c : st.collisions ≤ 65535)
    (d : st.dropped ≤ 65535) (u : st.unauthorised ≤ 65535) :
    wordAt st.entryBytes 0 = st.format ∧ wordAt st.entryBytes 2 = st.gap ∧ wordAt st.entryBytes 4 = st.collisions
      ∧ wordAt st.entryBytes 6 = st.dropped ∧ wordAt st.entryBytes 8 = st.unauthorised :=
  ⟨word_carries f, word_carries g, word_carries c, word_carries d, word_carries u⟩

section Summary

variable (d : Device)

theorem secondsSinceComplete_le : d.secondsSinceComplete ≤ 2047 := by
  unfold Device.secondsSinceComplete
  split
  · exact le_rfl
  · exact (Nat.min_le_left _ _).trans (by decide)

/-- The read summary (R61). -/
theorem summary_fields (o : d.ftu.overflow ≤ 255) :
    wordAt d.readSummary 0 % 2048 = d.secondsSinceComplete ∧ bitAt d.readSummary 1 3 = d.ftu.read.isSome
      ∧ bitsAt d.readSummary 1 4 2 = d.ftu.lastEnding.code ∧ bitAt d.readSummary 1 6 = d.ftu.reread
      ∧ bitAt d.readSummary 1 7 = d.ftu.blockingDropped ∧ byteAt d.readSummary 2 = d.ftu.overflow := by
  have seconds := secondsSinceComplete_le d
  have ending := d.ftu.lastEnding.code_le
  have running := d.ftu.read.isSome.toNat_le
  have reread := d.ftu.reread.toNat_le
  have dropped := d.ftu.blockingDropped.toNat_le
  have high : byteAt d.readSummary 1 = (d.secondsSinceComplete + 2048 * d.ftu.read.isSome.toNat
      + 4096 * d.ftu.lastEnding.code + 16384 * d.ftu.reread.toNat + 32768 * d.ftu.blockingDropped.toNat) / 256 := by
    simp only [Device.readSummary, wordOf, byteAt, flagAt_eq, List.cons_append, List.getD_cons_succ,
      List.getD_cons_zero, byteOf_toNat]
    omega
  have word : wordAt d.readSummary 0 = d.secondsSinceComplete + 2048 * d.ftu.read.isSome.toNat
      + 4096 * d.ftu.lastEnding.code + 16384 * d.ftu.reread.toNat + 32768 * d.ftu.blockingDropped.toNat := by
    simp only [Device.readSummary, wordAt, wordOf, byteAt, flagAt_eq, List.cons_append, List.getD_cons_succ,
      List.getD_cons_zero, byteOf_toNat]
    omega
  exact ⟨by omega, bitAt_of high (by omega), bitsAt_of high (by omega), bitAt_of high (by omega),
    bitAt_of high (by omega), Nat.mod_eq_of_lt (by omega)⟩

end Summary

section Heat

variable (d : Device)

theorem ofIdentity_le (n : Nat) : d.ofIdentity n ≤ n := by
  unfold Device.ofIdentity
  split
  · exact le_rfl
  · exact Nat.zero_le n

theorem tcShown_eq : d.clc.tcShown = (d.clc.lastStatus.map LastStatus.tc).getD 0 := by
  unfold Clc.tcShown
  cases d.clc.lastStatus <;> rfl

/-- The states and flags of the HEAT entry (R117). -/
theorem heat_flags (s : d.hcu.stage ≤ 7) :
    bitsAt d.heatEntry 1 0 2 = d.clc.tcState.code ∧ bitsAt d.heatEntry 1 2 3 = d.ofIdentity d.hcu.stage
      ∧ bitAt d.heatEntry 1 5 = d.hcu.sat
      ∧ bitAt d.heatEntry 1 6 = (d.identity.map CoachIdentity.clamped).getD false
      ∧ bitAt d.heatEntry 1 7 = d.hp.reached := by
  have state := d.clc.tcState.code_le
  have stage := (ofIdentity_le d d.hcu.stage).trans s
  have sat := d.hcu.sat.toNat_le
  have clamped := ((d.identity.map CoachIdentity.clamped).getD false).toNat_le
  have reached := d.hp.reached.toNat_le
  have second : byteAt d.heatEntry 1 = d.clc.tcState.code + 4 * d.ofIdentity d.hcu.stage + 32 * d.hcu.sat.toNat
      + 64 * ((d.identity.map CoachIdentity.clamped).getD false).toNat + 128 * d.hp.reached.toNat := by
    simp only [Device.heatEntry, byteAt, flagAt_eq, List.cons_append, List.getD_cons_succ, List.getD_cons_zero,
      byteOf_toNat]
    omega
  exact ⟨bitsAt_of second (by omega), bitsAt_of second (by omega), bitAt_of second (by omega),
    bitAt_of second (by omega), bitAt_of second (by omega)⟩

/-- The temperatures of the HEAT entry (R117). -/
theorem heat_temperatures (c : ∀ last, d.clc.lastStatus = some last → -80 ≤ last.tc ∧ last.tc ≤ 100)
    (lo : -80 ≤ d.hp.toInUse) (hi : d.hp.toInUse ≤ 100)
    (t : ∀ plan, d.cu.plan = some plan → 20 ≤ plan.target ∧ plan.target ≤ 48) :
    (d.heatEntry.getD 0 0#8).toInt = (d.clc.lastStatus.map LastStatus.tc).getD 0
      ∧ (d.heatEntry.getD 2 0#8).toInt = d.hp.toInUse
      ∧ (byteAt d.heatEntry 3 : Int) = (d.cu.plan.map Plan.target).getD 0 := by
  have cabin : -80 ≤ d.clc.tcShown ∧ d.clc.tcShown ≤ 100 := by
    unfold Clc.tcShown
    split
    · decide
    · next last k => exact c last k
  have target : 0 ≤ (d.cu.plan.map Plan.target).getD 0 ∧ (d.cu.plan.map Plan.target).getD 0 ≤ 48 := by
    cases k : d.cu.plan with
    | none => decide
    | some plan =>
      obtain ⟨above, below⟩ := t plan k
      exact ⟨le_trans (by decide) above, below⟩
  rw [← tcShown_eq]
  exact ⟨signedByteOf_toInt (by omega) (by omega), signedByteOf_toInt (by omega) (by omega),
    signedByteOf_toNat (by omega) (by omega)⟩

/-- The values of the HEAT entry (R117). -/
theorem heat_values (ew : d.hp.ew ≤ 160000) (p : d.hp.p ≤ 2730667) (q : d.hp.q ≤ 160) (g : d.hcu.grant ≤ 160)
    (a : d.hcu.announced ≤ 160) (lo : -1080 ≤ d.hp.slack) (hi : d.hp.slack ≤ 1080) (tf : d.hp.tf ≤ 1080)
    (ed : d.hcu.energy ≤ 4294967295) :
    wordAt d.heatEntry 4 + 65536 * byteAt d.heatEntry 6 = d.ofIdentity d.hp.ew
      ∧ wordAt d.heatEntry 7 + 65536 * byteAt d.heatEntry 9 = d.ofIdentity d.hp.p
      ∧ byteAt d.heatEntry 10 = d.ofIdentity d.hp.q ∧ byteAt d.heatEntry 11 = d.ofIdentity d.hcu.grant
      ∧ byteAt d.heatEntry 12 = d.ofIdentity d.hcu.announced ∧ signedAt d.heatEntry 13 = d.hp.slack
      ∧ wordAt d.heatEntry 15 = d.ofIdentity d.hp.tf ∧ byteAt d.heatEntry 17 = byteAt d.noticePayload 14
      ∧ wordAt d.heatEntry 18 + 65536 * byteAt d.heatEntry 20 = d.hcu.energy / 1000 := by
  have held : ∀ {n top}, n ≤ top → d.ofIdentity n ≤ top := fun h => (ofIdentity_le d _).trans h
  refine ⟨triple_carries ((held ew).trans (by decide)), triple_carries ((held p).trans (by decide)),
    Nat.mod_eq_of_lt ((held q).trans_lt (by decide)), Nat.mod_eq_of_lt ((held g).trans_lt (by decide)),
    Nat.mod_eq_of_lt ((held a).trans_lt (by decide)), ?_, word_carries ((held tf).trans (by decide)), rfl,
    triple_carries (by omega)⟩
  have slack : wordAt d.heatEntry 13 = (BitVec.ofInt 16 d.hp.slack).toNat :=
    word_carries (Nat.le_of_lt_succ (BitVec.isLt _))
  exact signedWord_carries (by omega) (by omega) slack

end Heat

/-! ### A LIST (Table 65) -/

/-- The bytes of an entry (Table 66). -/
def Subject.width : Subject → Nat
  | .lamps => 5
  | .faults => 6
  | .heat => 21
  | .line => 10

theorem length_of_mem_subjectEntries {d : Device} {subject : Subject} {entry : List Byte}
    (h : entry ∈ d.subjectEntries subject) : entry.length = subject.width := by
  cases subject with
  | lamps =>
    obtain ⟨c, -, rfl⟩ := List.mem_map.1 h
    rfl
  | faults =>
    obtain ⟨f, -, rfl⟩ := List.mem_map.1 h
    rfl
  | heat => rw [List.mem_singleton.1 h]; rfl
  | line => rw [List.mem_singleton.1 h]; rfl

theorem listSummary_eq (d : Device) (subject : Subject) :
    d.listSummary subject = if subject = .faults then d.readSummary else [] := by
  cases subject <;> rfl

theorem length_listSummary (d : Device) (subject : Subject) :
    (d.listSummary subject).length = if subject = .faults then 3 else 0 := by
  cases subject <;> rfl

/-- The entries of a LIST all have the width of their subject. -/
theorem length_listed (d : Device) (subject : Subject) (first : Nat) :
    (((d.subjectEntries subject).drop first).take subject.limit).flatten.length =
      subject.width * min subject.limit (d.subjectTotal subject - first) := by
  have width : ∀ n ∈ (((d.subjectEntries subject).drop first).take subject.limit).map List.length,
      n = subject.width := by
    intro n mem
    obtain ⟨entry, listed, rfl⟩ := List.mem_map.1 mem
    exact length_of_mem_subjectEntries (List.mem_of_mem_drop (List.mem_of_mem_take listed))
  rw [List.length_flatten, List.sum_eq_card_nsmul _ _ width, List.length_map, List.length_take, List.length_drop,
    smul_eq_mul, Nat.mul_comm]
  rfl

theorem list_fields (d : Device) (reply : Reply) (n : reply.next ≤ 255) (t : d.subjectTotal reply.subject ≤ 255) :
    byteAt (d.buildList reply).payload 0 = reply.subject.code ∧ byteAt (d.buildList reply).payload 1 = reply.next
      ∧ byteAt (d.buildList reply).payload 2 = d.subjectTotal reply.subject :=
  ⟨Nat.mod_eq_of_lt (reply.subject.code_le.trans_lt (by decide)), Nat.mod_eq_of_lt (Nat.lt_succ_of_le n),
    Nat.mod_eq_of_lt (Nat.lt_succ_of_le t)⟩

theorem list_entries (d : Device) (reply : Reply) : (d.buildList reply).payload.drop 3 =
    (if reply.subject = .faults then d.readSummary else [])
      ++ (((d.subjectEntries reply.subject).drop reply.next).take reply.subject.limit).flatten := by
  rw [← listSummary_eq]
  rfl

theorem list_length (d : Device) (reply : Reply) : (d.buildList reply).payload.length =
    3 + (if reply.subject = .faults then 3 else 0)
      + reply.subject.width * min reply.subject.limit (d.subjectTotal reply.subject - reply.next) := by
  unfold Device.buildList
  rw [List.length_append, List.length_append, length_listSummary, length_listed]
  rfl

theorem subjectTotal_lamps {d : Device} (h : d.ltu.tableOk) : d.subjectTotal .lamps = 19 := by
  obtain ⟨nums, -⟩ := h
  have n := congrArg List.length nums
  rw [List.length_map] at n
  exact (List.length_map _).trans n

/-! ### The obligation -/

/-- Settles O48: the offers of a reply by the places held (`startReply_held`, `startReply_first`, `startReply_whole`,
`startReply_second`), then the fields entry by entry. -/
theorem queriesStartTheirReply : Obligations.QueriesStartTheirReply := by
  refine ⟨?_, ?_, ?_, fun d => ⟨subjectTotal_lamps, List.length_map _, rfl, rfl, fun n => ⟨List.getElem?_map,
    List.getElem?_map⟩⟩, summary_fields, ?_, ?_, ?_, ?_⟩
  · intro s sender dest start c subject total count first second taken o query ht hc hf hs hk
    subst ht hc hf hs hk
    have x := exec_query query s
    refine ⟨fun m => query_completes o x (startReply_silent s.dev _ _ _ (by rw [m]; rfl)), fun m l => ?_, fun m l => ?_,
      fun m l k => ?_, fun m l k => ?_⟩
    · exact query_completes o x (startReply_held s.dev _ _ _ m l)
    · exact query_completes o x (startReply_first s.dev _ _ _ m l)
    · exact query_completes o x (startReply_whole s.dev _ _ _ m l k)
    · exact query_completes o x (startReply_second s.dev _ _ _ m l k)
  · intro s sender dest subject start o
    exact query_completes o rfl rfl
  · intro d reply p hp n t
    subst hp
    obtain ⟨code, first, total⟩ := list_fields d reply n t
    exact ⟨rfl, rfl, rfl, rfl, code, first, total, list_entries d reply, list_length d reply⟩
  · intro c e he v i r
    subst he
    exact channel_fields c v i r
  · intro restrictive f e he m s c o h
    subst he
    exact fault_fields restrictive f m s c o h
  · intro st e he f g c d u
    subst he
    exact stats_fields st f g c d u
  · intro d e held he hh tc lo hi target stage ew p q g a sl su tf ed
    obtain rfl : held = d.ofIdentity := funext hh
    subst he
    obtain ⟨state, stage, sat, clamped, reached⟩ := heat_flags d stage
    obtain ⟨cabin, outside, target⟩ := heat_temperatures d tc lo hi target
    exact ⟨cabin, state, stage, sat, clamped, reached, outside, target, heat_values d ew p q g a sl su tf ed⟩

end Sys2Proof.Machine
end

section
/-! THEOREMS. The judgement of a measurement (`judgementFollowsTheOrder`), and what becomes of the records and of the
blocks that follow them (`recordsFollowTheJudgement`). -/

namespace Sys2Proof.Machine

/-! ### The judgement (R66) -/

/-- A coach channel is judged with the Vf and the LED count of the identity held, and by the supply first. -/
theorem judge_coach {d : Device} {id : CoachIdentity} {num : Nat} (n : num ≤ 16) (i : d.identity = some id)
    (millivolts milliamps supply : Nat) : d.judge num millivolts milliamps supply =
      judgement true id.vf (id.entry num).leds millivolts milliamps supply := by
  simp [Device.judge, Device.channelVf, Device.channelLeds, n, i]

/-- A signal channel is judged with the Vf and the LED count of the configuration. -/
theorem judge_signal {d : Device} {num : Nat} (n : 16 < num) (millivolts milliamps supply : Nat) :
    d.judge num millivolts milliamps supply =
      judgement false d.conf.signalVf d.conf.signalLeds millivolts milliamps supply := by
  simp [Device.judge, Device.channelVf, Device.channelLeds, Nat.not_le.2 n]

/-- Settles O26: the order is that of `judgement`; the supply counts for a coach channel alone. -/
theorem judgementFollowsTheOrder : Obligations.JudgementFollowsTheOrder := by
  refine ⟨fun d id num millivolts milliamps supply _ n i => ?_, fun d num millivolts milliamps supply n _ => ?_⟩
  · rw [judge_coach n i]
    simp only [judgement, true_and]
    rfl
  · rw [judge_signal n]
    simp only [judgement, Bool.false_eq_true, false_and, if_false]
    rfl

/-! ### The records (R67, R68) -/

theorem failed_iff (status : LampStatus) :
    status.failed = true ↔ status = .opened ∨ status = .short ∨ status = .partly := by
  cases status <;> simp [LampStatus.failed]

theorem unknown_iff (status : LampStatus) : status.unknown = true ↔ status = .initial ∨ status = .unjudged := by
  cases status <;> simp [LampStatus.unknown]

/-- A judgement writes its status and the sampled values, whichever it is. -/
theorem judged_status (c : Channel) (status : LampStatus) (millivolts milliamps : Nat) :
    (c.judged status millivolts milliamps).status =
        (if status.failed = true ∨ status = .unjudged then status else .pass)
      ∧ (c.judged status millivolts milliamps).lastV = millivolts
      ∧ (c.judged status millivolts milliamps).lastI = milliamps := by
  unfold Channel.judged
  split
  · next f => exact ⟨(if_pos (.inl f)).symm, rfl, rfl⟩
  · next f =>
    split
    · next u => exact ⟨(if_pos (.inr u)).trans u |>.symm, rfl, rfl⟩
    · next u => exact ⟨(if_neg (not_or.2 ⟨f, u⟩)).symm, rfl, rfl⟩

/-- A failure counts a retry up to 6, confirms a channel that the coach reports, and is final for such a channel and
at the sixth retry (R67). -/
theorem judged_failure (c : Channel) {status : LampStatus} (f : status.failed = true) (r : c.retries ≤ 6)
    (millivolts milliamps : Nat) : (c.judged status millivolts milliamps).retries = min 6 (c.retries + 1)
      ∧ (c.judged status millivolts milliamps).confirmed = (c.confirmed || c.coachReported)
      ∧ (c.judged status millivolts milliamps).isFinal = (c.isFinal || c.coachReported || decide (5 ≤ c.retries)) := by
  have counted : countUp 6 c.retries = min 6 (c.retries + 1) := by unfold countUp; split <;> omega
  have last : countUp 6 c.retries = 6 ↔ 5 ≤ c.retries := by omega
  have e : c.judged status millivolts milliamps = c.fail status millivolts milliamps := if_pos f
  rw [e]
  exact ⟨counted, rfl, congrArg (c.isFinal || c.coachReported || ·) (decide_eq_decide.2 last)⟩

/-! ### The blocks of the lamps (R79 to R81) -/

theorem mandatory_iff (d : Device) (c : Channel) : d.mandatory c = true ↔
    ∃ id, d.identity = some id ∧ c.num ≤ 16 ∧ (id.entry c.num).mandatory = true := by
  unfold Device.mandatory Channel.ofCoach
  cases d.identity <;> simp

/-- The condition of LAMP_PENDING; a channel INITIAL or UNJUDGED is fitted (R79). -/
theorem lampsPend_iff (d : Device) : d.lampsPend = true ↔
    (∃ id, d.identity = some id ∧ ∃ c ∈ d.ltu.channels, c.num ≤ 16 ∧ (id.entry c.num).mandatory = true
        ∧ (c.status = .initial ∨ c.status = .unjudged))
      ∨ d.ltu.ageTimer = none := by
  have fitted : ∀ c : Channel, c.status.unknown = true → c.fitted = true := by
    intro c; unfold Channel.fitted; cases c.status <;> decide
  simp only [Device.lampsPend, Bool.or_eq_true, List.any_eq_true, Bool.and_eq_true, mandatory_iff,
    Option.isNone_iff_eq_none, ← unknown_iff]
  refine or_congr_left ⟨?_, ?_⟩
  · rintro ⟨c, m, ⟨-, id, i, n, k⟩, u⟩
    exact ⟨id, i, c, m, n, k, u⟩
  · rintro ⟨id, i, c, m, n, k, u⟩
    exact ⟨c, m, ⟨fitted c u, id, i, n, k⟩, u⟩

/-- The condition of LAMP_FAIL; a failed channel is fitted (R80). -/
theorem lampsFail_iff (d : Device) : d.lampsFail = true ↔
    ∃ id, d.identity = some id ∧ ∃ c ∈ d.ltu.channels, c.num ≤ 16 ∧ (id.entry c.num).mandatory = true
      ∧ (c.status = .opened ∨ c.status = .short ∨ c.status = .partly) ∧ c.masked = false := by
  have fitted : ∀ c : Channel, c.status.failed = true → c.fitted = true := by
    intro c; unfold Channel.fitted; cases c.status <;> decide
  simp only [Device.lampsFail, List.any_eq_true, Bool.and_eq_true, mandatory_iff, Bool.not_eq_true', ← failed_iff]
  constructor
  · rintro ⟨c, m, ⟨⟨-, id, i, n, k⟩, u⟩, w⟩
    exact ⟨id, i, c, m, n, k, u, w⟩
  · rintro ⟨id, i, c, m, n, k, u, w⟩
    exact ⟨c, m, ⟨⟨fitted c u, id, i, n, k⟩, u⟩, w⟩

/-- The condition of SIGNAL_FAIL (R81). -/
theorem signalFails_iff (ltu : Ltu) : ltu.signalFails = true ↔
    ∃ c ∈ ltu.channels, (c.num = 17 ∨ c.num = 19)
      ∧ (c.status = .opened ∨ c.status = .short ∨ c.status = .partly) := by
  simp only [Ltu.signalFails, List.any_eq_true, Bool.and_eq_true, Bool.or_eq_true, beq_iff_eq, failed_iff]

/-- Settles O27: the three judgements on a record, and the three blocks by the conditions of R79 to R81. -/
theorem recordsFollowTheJudgement : Obligations.RecordsFollowTheJudgement := by
  refine ⟨fun c status millivolts milliamps => ?_, fun d => ?_⟩
  · obtain ⟨written, volts, amps⟩ := judged_status c status millivolts milliamps
    obtain ⟨num, masked, reported⟩ := judged_keeps c status millivolts milliamps
    refine ⟨written, volts, amps, num, masked, reported, fun f r => ?_, ?_, ?_⟩
    · exact judged_failure c ((failed_iff status).2 f) r millivolts milliamps
    · rintro rfl
      exact ⟨rfl, rfl, rfl⟩
    · rintro rfl
      exact ⟨rfl, rfl, rfl⟩
  · simp only [Device.evalBlocks, Bool.and_eq_true, withCoach_iff, lampsPend_iff, lampsFail_iff, signalFails_iff,
      and_self]

end Sys2Proof.Machine
end

section
/-! SUPPORT. What a following-up makes of the lamp passes where no phase rule moves the bay in it (`InPhase`): the pass
in flight goes on, gives way or is stopped, or a pending kind is served. -/

namespace Sys2Proof.Machine

/-! ### The kinds that are pending (R70) -/

section Kinds

variable {d : Device} {pass : Pass}

theorem kindServed_retest (r : d.ltu.pendingRetest = true) (n : d.passSet .retest ≠ []) : d.kindServed = some .retest :=
  if_pos ⟨r, n⟩

theorem kindServed_signal (r : d.ltu.pendingRetest = false ∨ d.passSet .retest = []) (s : d.ltu.pendingSignal = true)
    (n : d.passSet .signal ≠ []) : d.kindServed = some .signal := by
  unfold Device.kindServed
  rw [if_neg (by rcases r with r | r <;> simp [r]), if_pos ⟨s, n⟩]

/-- Without a channel for a pending retest or signal pass the full pass alone can be served. -/
theorem kindServed_fullAtMost (r : d.ltu.pendingRetest = false ∨ d.passSet .retest = [])
    (s : d.ltu.pendingSignal = false ∨ d.passSet .signal = []) :
    d.kindServed = if d.ltu.pendingFull = true ∧ d.passSet .full ≠ [] then some .full else none := by
  unfold Device.kindServed
  rw [if_neg (by rcases r with r | r <;> simp [r]), if_neg (by rcases s with s | s <;> simp [s])]

/-- At the moment at which a pass ended, the pass begun then gives way to a retest that finds a channel. -/
theorem kindBefore_retest (m : d.ltu.endedAt = some d.clock) (r : d.ltu.pendingRetest = true)
    (n : (d.unbegin pass).passSet .retest ≠ []) : d.kindBefore pass = some .retest := by
  unfold Device.kindBefore
  rw [if_neg (not_not.2 m), if_pos ⟨r, n⟩]

/-- At that moment a pass other than a retest gives way to a signal pass, with no retest pending. -/
theorem kindBefore_signal (m : d.ltu.endedAt = some d.clock) (r : d.ltu.pendingRetest = false)
    (s : d.ltu.pendingSignal = true) (k : pass.kind ≠ .retest) (n : (d.unbegin pass).passSet .signal ≠ []) :
    d.kindBefore pass = some .signal := by
  unfold Device.kindBefore
  rw [if_neg (not_not.2 m), if_neg (by simp [r]), if_pos ⟨s, k, n⟩]

/-- A pass gives way at the moment at which another ended and at no other. -/
theorem kindBefore_none (m : d.ltu.endedAt ≠ some d.clock) : d.kindBefore pass = none := if_pos m

/-- A full pass taken back in PREPARING..CLEARED is pending again (R70, R77). -/
theorem unbegin_pendingFull (k : pass.kind = .full) (p : d.cu.phase.prepared = true) :
    (d.unbegin pass).ltu.pendingFull = true := by
  show (d.ltu.unbegin d.cu.phase.prepared pass).pendingFull = true
  rw [p]
  unfold Ltu.unbegin
  rw [k]
  rfl

/-- What a pass taken back leaves to find looks at the phase, the channels, the requests and what the pass met. -/
theorem unbegin_passSet_congr {e : Device} (p : e.cu.phase = d.cu.phase) (c : e.ltu.channels = d.ltu.channels)
    (r : e.ltu.requests = d.ltu.requests) (m : e.ltu.met = d.ltu.met) (kind : PassKind) :
    (e.unbegin pass).passSet kind = (d.unbegin pass).passSet kind := by
  have l : (e.unbegin pass).ltu.channels = (d.unbegin pass).ltu.channels
      ∧ (e.unbegin pass).ltu.requests = (d.unbegin pass).ltu.requests := by
    unfold Device.unbegin Ltu.unbegin
    cases pass.kind <;> simp [c, r, m]
  exact passSet_congr (show (e.unbegin pass).cu.phase = (d.unbegin pass).cu.phase from p) l.1 kind (.inr l.2)

/-- No stop takes effect where none is outstanding (R76, R78). -/
theorem stopFalls_of_noStop (n : d.ltu.stop = false) : d.stopFalls = false := by
  unfold Device.stopFalls
  rw [n, Bool.false_and]

/-- What the serving of a kind makes of the pass in flight and of the pending kinds (R70). -/
theorem PassesServed.of_kind {e : Device} {kind : PassKind} (h : PassesServed d e) (k : d.kindServed = some kind) :
    e.ltu.pass = some ⟨kind, d.passSet kind, d.passSet kind⟩ ∧ e.ltu.pendingRetest = false
      ∧ e.ltu.pendingSignal = (d.ltu.pendingSignal && decide (kind = .retest))
      ∧ e.ltu.pendingFull = (d.ltu.pendingFull && decide (kind = .retest ∨ kind = .signal)) := by
  obtain ⟨retest, signal, full⟩ := h.pending
  simp only [k, Option.some.injEq] at signal full
  exact ⟨by rw [h.pass, k]; rfl, retest, signal, full⟩

theorem PassesServed.stop {e : Device} (h : PassesServed d e) : e.ltu.stop = d.ltu.stop :=
  have ⟨stop, _, _, _⟩ := h.rest
  stop

theorem PassesServed.ageTimer {e : Device} (h : PassesServed d e) : e.ltu.ageTimer = d.ltu.ageTimer :=
  have ⟨_, _, age, _⟩ := h.rest
  age

/-- With no full pass pending the serving leaves the full pass timer and begins no full pass; a pending retest empties
the requests, and no kind adds to them (R71, R72). -/
theorem PassesServed.noFull {e : Device} (h : PassesServed d e) (n : d.ltu.pendingFull = false) :
    e.ltu.pendingFull = false ∧ e.ltu.fullTimer = d.ltu.fullTimer
      ∧ ∀ n ∈ e.ltu.requests, d.ltu.pendingRetest = false ∧ n ∈ d.ltu.requests := by
  obtain ⟨-, -, full⟩ := h.pending
  obtain ⟨timer, -⟩ := h.full
  refine ⟨by rw [full, n, Bool.false_and], by rw [timer, if_neg (by simp [n])], fun n m => ?_⟩
  rw [h.requests] at m
  split at m
  · cases m
  · next r => exact ⟨by simpa using r, m⟩

end Kinds

/-! ### The corroboration (R58, R69) -/

/-- A channel whose flags follow the Fault Table does not join. -/
theorem joins_of_corroborated {ftu : Ftu} {c : Channel} (h : c.corroborated ftu = c) : c.joins ftu = false := by
  rw [← h]
  exact (corroborated_idem ftu c).2

/-- Where all flags follow the Fault Table the corroboration changes nothing. -/
theorem corroborate_eq_self {d : Device} (h : ∀ c ∈ d.ltu.channels, c.corroborated d.ftu = c) : d.corroborate = d := by
  have channels : d.ltu.channels.map (Channel.corroborated d.ftu) = d.ltu.channels := by
    conv_rhs => rw [← List.map_id d.ltu.channels]
    exact List.map_congr_left h
  have noJoin := joining_eq_nil fun c m => joins_of_corroborated (h c m)
  simp [Device.corroborate, Device.onLtu, channels, noJoin]

/-- Where no channel joins the corroboration asks for no pass and no channel. -/
theorem corroborate_noJoin {d : Device} (h : ∀ c ∈ d.ltu.channels, c.joins d.ftu = false) :
    d.corroborate.ltu = { d.ltu with channels := d.ltu.channels.map (Channel.corroborated d.ftu) } := by
  simp [Device.corroborate, joining_eq_nil h]

/-- The corroboration writes neither number nor status. -/
theorem corroborated_keeps (ftu : Ftu) (c : Channel) :
    (c.corroborated ftu).num = c.num ∧ (c.corroborated ftu).status = c.status := by
  unfold Channel.corroborated
  repeat' split
  all_goals exact ⟨rfl, rfl⟩

/-! ### A bay that stays in its phase -/

/-- `b` is what a following-up has made of `a`, and no phase rule has moved the bay in it. -/
structure InPhase (a b : Device) : Prop where
  followed : Followed a b
  uncoupled : a.coupleNow = false
  phase : b.cu.phase = a.cu.phase

namespace InPhase

variable {a b d : Device}

/-- An event that leaves what the evaluations look at leaves an evaluated and settled bay in its phase. -/
theorem of_standing (f : Followed a b) (k : SameStanding d a) (e : d.evaluated) (p : d.phaseSettled) : InPhase a b :=
  ⟨f, (nextPhase_none_of a (k.evaluated e) (k.phaseSettled p)).2,
    phase_stays f.2.1 (k.evaluated e) (k.phaseSettled p)⟩

/-- A bay without a coach and without a plug stays as it is. -/
theorem of_unplugged (f : Followed a b) (p : a.cu.phase = .vacant ∨ a.cu.phase = .departing)
    (n : a.clc.plug = false) : InPhase a b := by
  have c : a.coupleNow = false := by simp [Device.coupleNow, n]
  exact ⟨f, c, (f.uncoupled c).1.phase p⟩

/-- A pass taken back outside PREPARING..CLEARED leaves no full pass and no full pass timer (R77). -/
theorem unbegin_noFull (p : a.cu.phase.prepared = false) (full : a.ltu.pendingFull = false)
    (timer : a.ltu.fullTimer = none) (pass : Pass) : (a.corroborate.unbegin pass).ltu.pendingFull = false
      ∧ (a.corroborate.unbegin pass).ltu.fullTimer = none := by
  show (a.corroborate.ltu.unbegin a.cu.phase.prepared pass).pendingFull = false
    ∧ (a.corroborate.ltu.unbegin a.cu.phase.prepared pass).fullTimer = none
  rw [p]
  unfold Ltu.unbegin
  cases pass.kind
  · exact ⟨full, timer⟩
  · exact ⟨full, timer⟩
  · exact ⟨full, rfl⟩

variable (h : InPhase a b)

include h

theorem clock : b.clock = a.clock := h.followed.1.clock

theorem lamps : LampsFollow a b :=
  have ⟨_, _, _, lamps, _, _⟩ := h.followed
  lamps

/-- The unit comes to its passes with the corroboration done and nothing else. -/
theorem ltu : (a.atPasses b).ltu = a.corroborate.ltu := by
  show a.lampsBefore b.cu.phase = _
  rw [h.phase, lampsBefore_stays h.uncoupled]

theorem window : (a.atPasses b).hcu.window = a.hcu.window ∧ (a.atPasses b).hcu.settling = a.hcu.settling := by
  simp [Device.atPasses, h.uncoupled]

theorem stopFalls : (a.atPasses b).stopFalls = a.stopFalls := by
  unfold Device.stopFalls
  rw [h.ltu, show (a.atPasses b).clock = a.clock from h.clock]
  rfl

theorem kindBefore (pass : Pass) : ((a.atPasses b).unbegin pass).ltu = (a.corroborate.unbegin pass).ltu
    ∧ (a.atPasses b).kindBefore pass = a.corroborate.kindBefore pass :=
  kindBefore_congr h.ltu h.clock h.phase pass

/-- With no pass in flight the pending kinds are served (R70). -/
theorem idle (n : a.ltu.pass = none) : PassesServed a.corroborate b :=
  (h.lamps.idle (by rw [h.ltu]; exact n)).congr h.ltu.symm h.window.1.symm h.window.2.symm h.clock.symm h.phase.symm
    rfl rfl rfl

/-- A pass that gives way is as if not begun when the pending kinds are served (R70, R83). -/
theorem givesWay {pass : Pass} (n : a.ltu.pass = some pass) (s : a.stopFalls = false)
    (k : (a.corroborate.kindBefore pass).isSome = true) : PassesServed (a.corroborate.unbegin pass) b :=
  (h.lamps.givesWay pass (by rw [h.ltu]; exact n) (by rw [h.stopFalls]; exact s)
    (by rw [(h.kindBefore pass).2]; exact k)).congr (h.kindBefore pass).1.symm h.window.1.symm h.window.2.symm
      h.clock.symm h.phase.symm rfl rfl rfl

/-- A pass that a stop ends is over when the pending kinds are served (R76, R78). -/
theorem stopped (n : a.ltu.pass.isSome = true) (s : a.stopFalls = true) : PassesServed a.corroborate.passStopped b := by
  have served := h.lamps.stopped (by rw [h.ltu]; exact n) (by rw [h.stopFalls]; exact s)
  obtain ⟨window, settling⟩ := h.window
  have clock : (a.atPasses b).clock = a.clock := h.clock
  refine served.congr ?_ ?_ ?_ clock.symm h.phase.symm rfl rfl rfl
  · simp only [Device.passStopped, h.ltu, clock]
    rfl
  · simp only [Device.passStopped, h.ltu, window]
    rfl
  · simp only [Device.passStopped, h.ltu, window, settling]
    rfl

/-- A pass in flight that is neither stopped nor gives way stays as it is; at the moment at which a pass ended the kinds
that are over leave the pending set (R70). -/
theorem goesOn {pass : Pass} (n : a.ltu.pass = some pass) (s : a.stopFalls = false)
    (k : a.corroborate.kindBefore pass = none) :
    b.hcu.window = a.hcu.window ∧ b.hcu.settling = a.hcu.settling
      ∧ b.ltu =
        if a.ltu.endedAt = some a.clock then
          { a.corroborate.ltu with
            requests := if a.corroborate.ltu.pendingRetest = true then [] else a.corroborate.ltu.requests,
            pendingRetest := false,
            pendingSignal := a.ltu.pendingSignal && decide (pass.kind = .retest),
            pendingFull := a.ltu.pendingFull && decide (pass.kind ≠ .full),
            fullTimer :=
              if a.ltu.pendingFull = true ∧ pass.kind = .full then some (a.clock + 600000000)
              else a.ltu.fullTimer }
        else a.corroborate.ltu := by
  have goes := h.lamps.goesOn pass (by rw [h.ltu]; exact n) (by rw [h.stopFalls]; exact s)
    (by rw [(h.kindBefore pass).2]; exact k)
  rw [h.ltu, h.window.1, h.window.2, h.clock] at goes
  exact goes

/-- The timers of the unit that a following-up does not write. -/
theorem timers : b.ltu.retestTimer = a.ltu.retestTimer ∧ b.ltu.signalTimer = a.ltu.signalTimer :=
  have ⟨stays, _⟩ := h.followed.uncoupled h.uncoupled
  have ⟨retest, _, signal⟩ := stays.timers
  ⟨retest, signal⟩

/-- A pass in flight that no stop ends goes on, unless a pass has ended at this moment (R70). -/
theorem keeps (n : a.ltu.pass.isSome = true) (s : a.stopFalls = false) (m : a.ltu.endedAt ≠ some a.clock) :
    b.hcu.window = a.hcu.window ∧ b.hcu.settling = a.hcu.settling ∧ b.ltu = a.corroborate.ltu := by
  obtain ⟨pass, p⟩ := Option.isSome_iff_exists.1 n
  have goes := h.goesOn p s (kindBefore_none m)
  rwa [if_neg m] at goes

/-- Outside PREPARING..CLEARED, with no full pass pending and its timer stopped, a following-up leaves it so, and asks
for the retest of no other channels (R77). -/
theorem noFull (p : a.cu.phase.prepared = false) (full : a.ltu.pendingFull = false) (timer : a.ltu.fullTimer = none) :
    b.ltu.pendingFull = false ∧ b.ltu.fullTimer = none ∧ ∀ n ∈ b.ltu.requests, n ∈ a.corroborate.ltu.requests := by
  cases n : a.ltu.pass with
  | none =>
    obtain ⟨gone, same, asked⟩ := (h.idle n).noFull full
    exact ⟨gone, same.trans timer, fun n m => (asked n m).2⟩
  | some pass =>
    cases s : a.stopFalls with
    | true =>
      obtain ⟨gone, same, asked⟩ := (h.stopped (Option.isSome_of_eq_some n) s).noFull full
      exact ⟨gone, same.trans timer, fun n m => (asked n m).2⟩
    | false =>
      cases k : a.corroborate.kindBefore pass with
      | none =>
        obtain ⟨-, -, ltu⟩ := h.goesOn n s k
        rw [ltu]
        split
        · refine ⟨by simp [full], by simp [full, timer], fun n m => ?_⟩
          dsimp only at m
          split at m
          · cases m
          · exact m
        · exact ⟨full, timer, fun _ => id⟩
      | some kind =>
        obtain ⟨full, timer⟩ := unbegin_noFull p full timer pass
        obtain ⟨gone, same, asked⟩ := (h.givesWay n s (Option.isSome_of_eq_some k)).noFull full
        refine ⟨gone, same.trans timer, fun n m => ?_⟩
        obtain ⟨noRetest, asked⟩ := asked n m
        obtain ⟨retest, -, requests⟩ := unbegin_fields a.corroborate.ltu a.cu.phase.prepared pass
        have other : pass.kind ≠ .retest := by
          intro k
          have pending : (a.corroborate.unbegin pass).ltu.pendingRetest = true := retest.trans (by simp [k])
          rw [noRetest] at pending
          cases pending
        exact requests other ▸ asked

end InPhase

end Sys2Proof.Machine
end

section
/-! THEOREMS. The timers of the lamp check, the channels of its passes, and their end at an unplug
(`lampTimersMakePassesPending`). -/

namespace Sys2Proof.Machine

/-! ### The expiry of a timer (R71 to R73, R79) -/

/-- What is left by a retest timer that has run out (R71). -/
def Device.retestDue (d : Device) (t : Nat) : Device :=
  { d with clock := max d.clock t, ltu := { d.ltu with retestTimer := none, pendingRetest := true } }

/-- What is left by a full pass timer that has run out (R72). -/
def Device.fullDue (d : Device) (t : Nat) : Device :=
  { d with clock := max d.clock t, ltu := { d.ltu with fullTimer := none, pendingFull := true } }

/-- What is left by a signal pass timer that has run out (R73). -/
def Device.signalDue (d : Device) (t : Nat) : Device :=
  { d with
    clock := max d.clock t,
    ltu := { d.ltu with
      signalTimer := some (t + 60000000), pendingSignal := d.ltu.pendingSignal || d.sc.mode.heats } }

/-- What is left by a full-pass age timer that has run out (R79). -/
def Device.lampAgeDue (d : Device) (t : Nat) : Device :=
  { d with clock := max d.clock t, ltu := { d.ltu with ageTimer := none } }

section Due

variable {s : State} {t : Nat}

theorem exec_retestDue (h : s.dev.ltu.retestTimer = some t) :
    exec .retestTimerExpiry s = .next { s with dev := close s.dev (s.dev.retestDue t) } :=
  exec_next rfl (congrArg (s.dev.onExpiry · _) h)

theorem exec_fullDue (h : s.dev.ltu.fullTimer = some t) :
    exec .fullPassTimerExpiry s = .next { s with dev := close s.dev (s.dev.fullDue t) } :=
  exec_next rfl (congrArg (s.dev.onExpiry · _) h)

theorem exec_signalDue (h : s.dev.ltu.signalTimer = some t) :
    exec .signalPassTimer s = .next { s with dev := close s.dev (s.dev.signalDue t) } := by
  refine exec_next (f := fun d => d.onExpiry d.ltu.signalTimer fun t => close d (t.onLtu fun ltu =>
    { ltu with
      signalTimer := Timer.next ltu.signalTimer Config.signalPassPeriod,
      pendingSignal := ltu.pendingSignal || d.sc.mode.heats })) rfl ?_
  have next : s.dev.ltu.signalTimer.next Config.signalPassPeriod = some (t + 60000000) := by rw [h]; rfl
  rw [h, Device.onExpiry_some, Device.onLtu, Device.reach_ltu, next]
  rfl

theorem exec_lampAgeDue (h : s.dev.ltu.ageTimer = some t) :
    exec .fullPassAgeExpiry s = .next { s with dev := close s.dev (s.dev.lampAgeDue t) } :=
  exec_next rfl (congrArg (s.dev.onExpiry · _) h)

end Due

/-! ### The kind that a timer has made pending (R70, R83) -/

section Timers

variable {d b : Device} {t : Nat} {pass : Pass} {set : List Nat}

/-- At the moment at which a pass has ended a retest that falls due begins, and the kind begun then is pending again
(R70, R83). -/
theorem retestDue_givesWay (h : InPhase (d.retestDue t) b) (unchanged : (d.retestDue t).corroborate = d.retestDue t)
    (goesOn : (d.retestDue t).stopFalls = false) (p : d.ltu.pass = some pass)
    (m : d.ltu.endedAt = some (max d.clock t)) (same : (d.unbegin pass).passSet .retest = set) (found : set ≠ []) :
    b.ltu.pass = some ⟨.retest, set, set⟩ ∧ b.ltu.pendingRetest = false
      ∧ (pass.kind = .signal → b.ltu.pendingSignal = true)
      ∧ (pass.kind = .full → d.cu.phase.prepared = true → b.ltu.pendingFull = true) := by
  have same : ((d.retestDue t).unbegin pass).passSet .retest = set :=
    (unbegin_passSet_congr (d := d) (e := d.retestDue t) rfl rfl rfl rfl _).trans same
  have before := kindBefore_retest (d := d.retestDue t) (pass := pass) m rfl (by rwa [same])
  have served := h.givesWay p goesOn (by rw [unchanged, before]; rfl)
  rw [unchanged] at served
  obtain ⟨retest, signal, -⟩ := unbegin_fields (d.retestDue t).ltu d.cu.phase.prepared pass
  obtain ⟨begun, gone, signals, full⟩ :=
    served.of_kind (kindServed_retest (retest.trans (Bool.or_true _)) (by rwa [same]))
  refine ⟨begun.trans (by rw [same]), gone, fun k => ?_, fun k prepared => ?_⟩
  · have again : ((d.retestDue t).unbegin pass).ltu.pendingSignal = true := signal.trans (by rw [k]; rfl)
    rw [signals, again]
    rfl
  · rw [full, unbegin_pendingFull (d := d.retestDue t) k prepared]
    rfl

/-- A retest that falls due in a free unit is pending no more, and begins where it finds a channel (R70, R71). -/
theorem retestDue_idle (h : InPhase (d.retestDue t) b) (unchanged : (d.retestDue t).corroborate = d.retestDue t)
    (p : d.ltu.pass = none) : (b.ltu.pendingRetest = false ∧ b.ltu.requests = [])
      ∧ (d.passSet .retest ≠ [] → b.ltu.pass = some ⟨.retest, d.passSet .retest, d.passSet .retest⟩) := by
  have served := h.idle p
  rw [unchanged] at served
  obtain ⟨gone, -, -⟩ := served.pending
  refine ⟨⟨gone, served.requests⟩, fun found => ?_⟩
  have same : (d.retestDue t).passSet .retest = d.passSet .retest := passSet_congr rfl rfl _ (.inr rfl)
  obtain ⟨begun, -⟩ := served.of_kind (kindServed_retest rfl (by rwa [same]))
  rwa [same] at begun

/-- A full pass that falls due in a free unit, with no channel for a retest or a signal pass, is pending no more, and
its timer starts again (R70, R72; log entry 14). -/
theorem fullDue_idle (h : InPhase (d.fullDue t) b) (unchanged : (d.fullDue t).corroborate = d.fullDue t)
    (p : d.ltu.pass = none) (r : d.ltu.pendingRetest = false ∨ d.passSet .retest = [])
    (s : d.ltu.pendingSignal = false ∨ d.passSet .signal = []) :
    b.ltu.pendingFull = false ∧ b.ltu.fullTimer = some (max d.clock t + 600000000) := by
  have served := h.idle p
  rw [unchanged] at served
  have same : ∀ kind, (d.fullDue t).passSet kind = d.passSet kind := fun kind => passSet_congr rfl rfl _ (.inr rfl)
  have kind := kindServed_fullAtMost (d := d.fullDue t) (by rwa [same]) (by rwa [same])
  obtain ⟨-, -, pending⟩ := served.pending
  obtain ⟨timer, -⟩ := served.full
  have gone : b.ltu.pendingFull = false := by
    rw [pending, kind]
    split <;> simp
  exact ⟨gone, timer.trans (if_pos ⟨rfl, gone⟩)⟩

/-- At the moment at which a pass has ended a signal pass that falls due begins beside no retest, and a full pass begun
then is pending again (R70, R83). -/
theorem signalDue_givesWay (h : InPhase (d.signalDue t) b) (unchanged : (d.signalDue t).corroborate = d.signalDue t)
    (goesOn : (d.signalDue t).stopFalls = false) (due : (d.signalDue t).ltu.pendingSignal = true)
    (p : d.ltu.pass = some pass) (k : pass.kind ≠ .retest) (m : d.ltu.endedAt = some (max d.clock t))
    (r : d.ltu.pendingRetest = false) (same : (d.unbegin pass).passSet .signal = set) (found : set ≠ []) :
    b.ltu.pass = some ⟨.signal, set, set⟩ ∧ b.ltu.pendingSignal = false
      ∧ (pass.kind = .full → d.cu.phase.prepared = true → b.ltu.pendingFull = true) := by
  have same : ((d.signalDue t).unbegin pass).passSet .signal = set :=
    (unbegin_passSet_congr (d := d) (e := d.signalDue t) rfl rfl rfl rfl _).trans same
  have before := kindBefore_signal (d := d.signalDue t) (pass := pass) m r due k (by rwa [same])
  have served := h.givesWay p goesOn (by rw [unchanged, before]; rfl)
  rw [unchanged] at served
  obtain ⟨retest, signal, -⟩ := unbegin_fields (d.signalDue t).ltu d.cu.phase.prepared pass
  have noRetest : ((d.signalDue t).unbegin pass).ltu.pendingRetest = false :=
    retest.trans ((congrArg (· || d.ltu.pendingRetest) (decide_eq_false k)).trans r)
  obtain ⟨begun, -, gone, full⟩ := served.of_kind
    (kindServed_signal (.inl noRetest) (signal.trans (by rw [due, Bool.or_true])) (by rwa [same]))
  refine ⟨begun.trans (by rw [same]), gone.trans (Bool.and_false _), fun k prepared => ?_⟩
  rw [full, unbegin_pendingFull (d := d.signalDue t) k prepared]
  rfl

/-- A signal pass that falls due in a free unit, with no retest pending, measures at once (R70, R73, R76). -/
theorem signalDue_idle (h : InPhase (d.signalDue t) b) (unchanged : (d.signalDue t).corroborate = d.signalDue t)
    (due : (d.signalDue t).ltu.pendingSignal = true) (p : d.ltu.pass = none) (r : d.ltu.pendingRetest = false)
    (found : d.passSet .signal ≠ []) :
    b.ltu.pass = some ⟨.signal, d.passSet .signal, d.passSet .signal⟩
      ∧ b.ltu.pendingSignal = false ∧ b.ltu.measuring = (d.passSet .signal).head?
      ∧ b.ltu.measureTimer = some (max d.clock t + 40000) ∧ b.ltu.window = .none := by
  have served := h.idle p
  rw [unchanged] at served
  have same : (d.signalDue t).passSet .signal = d.passSet .signal := passSet_congr rfl rfl _ (.inr rfl)
  obtain ⟨begun, -, gone, -⟩ := served.of_kind (kindServed_signal (.inl r) due (by rwa [same]))
  rw [same] at begun
  obtain ⟨window, -, -, measures, -⟩ := served.released fun q e => by
    obtain rfl : Pass.mk .signal (d.passSet .signal) (d.passSet .signal) = q := Option.some.inj (begun.symm.trans e)
    exact hasCoach_signal d
  obtain ⟨first, timer⟩ := measures _ begun
  exact ⟨begun, gone.trans (Bool.and_false _), first, timer, window⟩

end Timers

/-! ### The age of the last full pass (R79) -/

/-- A following-up starts no full-pass age timer (R72). -/
theorem LampsFollow.ageTimer {a b : Device} (h : LampsFollow a b) (n : a.ltu.ageTimer = none) :
    b.ltu.ageTimer = none := by
  have age : (a.atPasses b).ltu.ageTimer = none := by simp [Device.atPasses, Device.lampsBefore, n]
  cases p : (a.atPasses b).ltu.pass with
  | none => exact (h.idle p).ageTimer.trans age
  | some pass =>
    cases s : (a.atPasses b).stopFalls with
    | true => exact (h.stopped (by rw [p]; rfl) s).ageTimer.trans age
    | false =>
      cases k : (a.atPasses b).kindBefore pass with
      | none =>
        obtain ⟨-, -, ltu⟩ := h.goesOn pass p s k
        rw [ltu]
        split <;> exact age
      | some kind =>
        refine (h.givesWay pass p s (by rw [k]; rfl)).ageTimer.trans ?_
        show ((a.atPasses b).ltu.unbegin (a.atPasses b).cu.phase.prepared pass).ageTimer = none
        unfold Ltu.unbegin
        cases pass.kind <;> exact age

/-- Where the age timer has stopped, LAMP_PENDING is present with a coach (R79). -/
theorem close_lampPending {before d : Device} (n : d.ltu.ageTimer = none) :
    (close before d).cu.blocks.lampPending = (close before d).cu.phase.withCoach := by
  obtain ⟨-, -, -, lamps, -, -⟩ := followed_close before d
  obtain ⟨⟨-, -, blocks⟩, -⟩ := close_settled before d
  rw [blocks]
  simp [Device.evalBlocks, Device.lampsPend, lamps.ageTimer n]

/-! ### The channels of a pass (R71 to R73) -/

theorem fitted_iff (c : Channel) : c.fitted = true ↔ c.status ≠ .off := by simp [Channel.fitted]

/-- A coach channel belongs to a retest in PREPARING..CLEARED alone, a signal channel where it has failed (R71). -/
theorem inRetest_iff (d : Device) (c : Channel) : d.inRetest c = true ↔ c.status ≠ .off
    ∧ ((16 < c.num ∧ c.status.failed = true ∧ c.isFinal = false)
      ∨ (c.num ≤ 16 ∧ d.cu.phase.prepared = true
        ∧ ((c.status.failed = true ∧ c.isFinal = false) ∨ c.status = .unjudged ∨ c.num ∈ d.ltu.requests))) := by
  unfold Device.inRetest Channel.ofCoach
  by_cases n : c.num ≤ 16
  · simp [n, Nat.not_lt.2 n, fitted_iff, or_assoc]
    tauto
  · simp [n, Nat.not_le.1 n, fitted_iff, and_assoc]

theorem mem_passSet_iff (d : Device) (kind : PassKind) (n : Nat) :
    n ∈ d.passSet kind ↔ ∃ c ∈ d.ltu.channels, c.num = n ∧ d.inPass c kind = true := by
  unfold Device.passSet
  simp only [List.mem_map, List.mem_filter]
  exact exists_congr fun c => by tauto

/-- The channels of a pass stand in ascending order (R71 to R73). -/
theorem passSet_ascending {d : Device} (h : d.ltu.tableOk) (kind : PassKind) : (d.passSet kind).Pairwise (· < ·) := by
  obtain ⟨nums, -⟩ := h
  refine List.Pairwise.sublist (List.filter_sublist.map _) ?_
  rw [nums]
  decide

/-- The channels of a retest, a signal pass and a full pass (R71 to R73). -/
theorem mem_passSet_kinds (d : Device) (n : Nat) :
    (n ∈ d.passSet .retest ↔
      ∃ c ∈ d.ltu.channels, c.num = n ∧ c.status ≠ .off
        ∧ ((16 < n ∧ c.status.failed = true ∧ c.isFinal = false)
          ∨ (n ≤ 16 ∧ d.cu.phase.prepared = true
            ∧ ((c.status.failed = true ∧ c.isFinal = false) ∨ c.status = .unjudged ∨ n ∈ d.ltu.requests))))
    ∧ (n ∈ d.passSet .signal ↔ ∃ c ∈ d.ltu.channels, c.num = n ∧ c.status ≠ .off ∧ 16 < n)
    ∧ (n ∈ d.passSet .full ↔
      ∃ c ∈ d.ltu.channels, c.num = n ∧ c.status ≠ .off ∧ (16 < n ∨ d.cu.phase.prepared = true)) := by
  simp only [mem_passSet_iff]
  refine ⟨exists_congr fun c => and_congr_right fun _ => and_congr_right ?_,
    exists_congr fun c => and_congr_right fun _ => and_congr_right ?_,
    exists_congr fun c => and_congr_right fun _ => and_congr_right ?_⟩
  · rintro rfl
    exact inRetest_iff d c
  · rintro rfl
    simp [Device.inPass, fitted_iff, Channel.ofCoach]
  · rintro rfl
    simp [Device.inPass, fitted_iff, Channel.ofCoach]

/-! ### A channel and the corroboration set (R69) -/

theorem joins_iff (ftu : Ftu) (c : Channel) : c.joins ftu = true ↔
    c.num ≤ 16 ∧ c.status ≠ .off ∧ ftu.corroborates c.num = true ∧ c.coachReported = false := by
  simp [Channel.joins, Channel.ofCoach, fitted_iff, and_assoc]

/-- A channel that leaves the set loses confirmed, and final unless its retries stand at 6. -/
theorem corroborated_leaves {ftu : Ftu} {c : Channel} (r : c.coachReported = true)
    (n : ftu.corroborates c.num = false) :
    c.corroborated ftu =
      { c with coachReported := false, confirmed := false, isFinal := c.isFinal && decide (c.retries = 6) } := by
  unfold Channel.corroborated
  rw [if_neg (by simp [Channel.joins, r]), if_pos (by simp [r, n])]
  rfl

/-- A channel that neither joins nor leaves stays. -/
theorem corroborated_stays {ftu : Ftu} {c : Channel} (j : c.joins ftu = false)
    (k : c.coachReported = false ∨ ftu.corroborates c.num = true) : c.corroborated ftu = c := by
  unfold Channel.corroborated
  rw [if_neg (by simp [j]), if_neg (by rcases k with k | k <;> simp [k])]

/-! ### The unplug (R76 to R78) -/

/-- What an unplug in PREPARING..CLEARED leaves: a bay without plug and coach, its LTU out of PREPARING..CLEARED, and no
channel that joins where none did, or where the coach has been torn down. -/
structure Unplugged (d e : Device) : Prop where
  clock : e.clock = d.clock
  plug : e.clc.plug = false
  phase : e.cu.phase = .vacant ∨ e.cu.phase = .departing
  ltu : ∃ channels age, e.ltu = { d.ltu.leavePrepared with channels := channels, ageTimer := age }
  joins : (d.cu.phase ≠ .cleared ∨ ∀ c ∈ d.ltu.channels, c.joins d.ftu = false) →
    ∀ c ∈ e.ltu.channels, c.joins e.ftu = false

/-- Nothing joins an empty table. -/
theorem joins_reset (c : Channel) : c.joins Ftu.reset = false := by
  simp [Channel.joins, Ftu.corroborates, Ftu.reset]

/-- The mask of a plan decides nothing about the corroboration set. -/
theorem joins_withMask (plan : Option Plan) (ftu : Ftu) (c : Channel) : (c.withMask plan).joins ftu = c.joins ftu := by
  unfold Channel.withMask
  split <;> rfl

theorem endAborted_table (ftu : Ftu) : ftu.endAborted.table = ftu.table := by
  unfold Ftu.endAborted
  split <;> rfl

/-- The unplug at CLC and FTU writes nothing else, and of the FTU not the table. -/
theorem unplugLink_eq (d : Device) :
    d.unplugLink = { d with clc := d.clc.unplugged, ftu := d.unplugLink.ftu }
      ∧ d.unplugLink.ftu.table = d.ftu.table := by
  unfold Device.unplugLink
  dsimp only
  split
  · exact ⟨rfl, endAborted_table d.ftu⟩
  · exact ⟨rfl, rfl⟩

/-- Leaving PREPARING..CLEARED for VACANT tears the coach channels down as well (R64, R77). -/
theorem onPhase_vacant (ltu : Ltu) {old : Phase} (p : old.prepared = true) : ltu.onPhase old .vacant =
    { ltu.leavePrepared with channels := ltu.channels.map Channel.tornDown, ageTimer := none } := by
  cases old <;> simp [Phase.prepared] at p <;>
    simp [Ltu.onPhase, Phase.prepared, Phase.tornDown, Ltu.leavePrepared, Ltu.tearDown]

theorem onPhase_departing (ltu : Ltu) {old : Phase} (p : old.prepared = true) :
    ltu.onPhase old .departing = ltu.leavePrepared := by
  cases old <;> simp [Phase.prepared] at p <;> rfl

theorem setPhase_vacant (d : Device) : (d.setPhase .vacant).clock = d.clock
    ∧ (d.setPhase .vacant).clc.plug = d.clc.plug ∧ (d.setPhase .vacant).ltu = d.ltu.onPhase d.cu.phase .vacant
    ∧ (d.setPhase .vacant).ftu = Ftu.reset := by
  have e : d.setPhase .vacant = ((d.cuPhase .vacant).handPhase d.cu.phase .vacant).setIdentity none := by
    simp [Device.setPhase, Device.dropIdentity, Phase.tornDown]
  rw [e]
  refine ⟨?_, ?_, ?_, ?_⟩ <;> simp [Device.handPhase, Device.cuPhase, Clc.onPhase, Ftu.onPhase]

theorem setPhase_departing (d : Device) : (d.setPhase .departing).clock = d.clock
    ∧ (d.setPhase .departing).clc.plug = d.clc.plug
    ∧ (d.setPhase .departing).ltu =
      { d.ltu.onPhase d.cu.phase .departing with
        channels := (d.ltu.onPhase d.cu.phase .departing).channels.map (Channel.withMask none) }
    ∧ (d.setPhase .departing).ftu.table = d.ftu.table := by
  have e : d.setPhase .departing = ((d.cuPhase .departing).handPhase d.cu.phase .departing).applyMask := by
    simp [Device.setPhase, Device.dropIdentity, Phase.tornDown]
  rw [e]
  refine ⟨?_, ?_, ?_, ?_⟩ <;>
    simp [Device.handPhase, Device.cuPhase, Device.applyMask, Clc.onPhase, Ftu.onPhase, endAborted_table]

theorem unplugged_vacant {d e : Device} (l : e.ltu = d.ltu) (c : e.clock = d.clock) (n : e.clc.plug = false)
    (p : e.cu.phase.prepared = true) : Unplugged d (e.setPhase .vacant) := by
  obtain ⟨clock, plug, ltu, ftu⟩ := setPhase_vacant e
  exact {
    clock := clock.trans c
    plug := plug.trans n
    phase := .inl (Stays.setPhase_phase e .vacant)
    ltu := ⟨_, _, by rw [ltu, onPhase_vacant e.ltu p, l]⟩
    joins := fun _ c _ => by rw [ftu]; exact joins_reset c }

theorem unplugged_departing {d e : Device} (l : e.ltu = d.ltu) (c : e.clock = d.clock) (n : e.clc.plug = false)
    (t : e.ftu.table = d.ftu.table) (p : e.cu.phase = .cleared) (q : d.cu.phase = .cleared) :
    Unplugged d (e.setPhase .departing) := by
  obtain ⟨clock, plug, ltu, table⟩ := setPhase_departing e
  rw [onPhase_departing e.ltu (by rw [p]; rfl), l] at ltu
  refine ⟨clock.trans c, plug.trans n, .inr (Stays.setPhase_phase e .departing), ⟨_, _, ltu⟩, fun joins => ?_⟩
  have noJoin := joins.resolve_left (not_not.2 q)
  rw [ltu, (corroborated_congr (table.trans t)).2]
  intro c m
  obtain ⟨x, member, rfl⟩ := List.mem_map.1 (show c ∈ d.ltu.channels.map (Channel.withMask none) from m)
  rw [joins_withMask]
  exact noJoin x member

/-- An unplug in PREPARING..CLEARED (R38, R64, R77, R134). -/
theorem unplugPhase_unplugged (d : Device) (p : d.cu.phase.prepared = true) : Unplugged d d.unplugLink.unplugPhase := by
  obtain ⟨link, table⟩ := unplugLink_eq d
  generalize d.unplugLink = e at link table
  have phase : e.cu.phase = d.cu.phase := by rw [link]
  have ltu : e.ltu = d.ltu := by rw [link]
  have clock : e.clock = d.clock := by rw [link]
  have plug : e.clc.plug = false := by rw [link]; rfl
  unfold Device.unplugPhase
  cases q : d.cu.phase <;> rw [q] at p phase <;> rw [phase] <;> dsimp only
  case preparing | ready | clearing =>
    exact unplugged_vacant (e := e.onAlarms _) ltu clock plug (by show e.cu.phase.prepared = true; rw [phase]; exact p)
  case cleared => exact unplugged_departing ltu clock plug table phase q
  all_goals cases p

theorem stoppable_eq {ltu : Ltu} {pass : Pass} (p : ltu.pass = some pass) :
    ltu.stoppable = (pass.kind != .signal && hasCoach pass.channels) := by
  unfold Ltu.stoppable
  rw [p]

section Unplug

variable {d e b : Device}

/-- What becomes of the full pass and the requests at an unplug (R77). -/
theorem unplugged_noFull (u : Unplugged d e) (h : InPhase e b) : b.ltu.fullTimer = none ∧ b.ltu.pendingFull = false
    ∧ (d.cu.phase ≠ .cleared ∨ (∀ c ∈ d.ltu.channels, c.joins d.ftu = false) → ∀ n ∈ b.ltu.requests, 16 < n) := by
  obtain ⟨channels, age, ltu⟩ := u.ltu
  have prepared : e.cu.phase.prepared = false := by rcases u.phase with p | p <;> rw [p] <;> rfl
  obtain ⟨full, timer, requests⟩ := h.noFull prepared (by rw [ltu]; rfl) (by rw [ltu]; rfl)
  refine ⟨timer, full, fun joins n m => ?_⟩
  have asked := requests n m
  rw [corroborate_noJoin (u.joins joins), ltu] at asked
  exact of_decide_eq_true (List.mem_filter.1 asked).2

/-- A pass in flight at an unplug that no stop ends at once goes on, its stop as the unplug has left it (R77, R78). -/
theorem unplugged_keeps (u : Unplugged d e) (h : InPhase e b) {pass : Pass} (p : d.ltu.pass = some pass)
    (s : e.stopFalls = false) (m : d.ltu.endedAt ≠ some d.clock) :
    b.ltu.pass = some pass ∧ b.ltu.stop = e.ltu.stop ∧ b.ltu.measuring = d.ltu.measuring := by
  obtain ⟨channels, age, ltu⟩ := u.ltu
  obtain ⟨-, -, kept⟩ := h.keeps (by rw [ltu]; exact Option.isSome_of_eq_some p) s (by rw [ltu, u.clock]; exact m)
  rw [kept]
  refine ⟨?_, rfl, ?_⟩
  · show e.ltu.pass = _
    rw [ltu]
    exact p
  · show e.ltu.measuring = _
    rw [ltu]
    rfl

/-- What becomes of a pass in flight at an unplug (R76 to R78). -/
theorem unplugged_pass (u : Unplugged d e) (h : InPhase e b) {pass : Pass} (p : d.ltu.pass = some pass)
    (go : d.ltu.stop = false) :
    (pass.kind = .signal ∨ hasCoach pass.channels = false → d.ltu.endedAt ≠ some d.clock →
      b.ltu.pass = some pass ∧ b.ltu.stop = false ∧ b.ltu.measuring = d.ltu.measuring)
    ∧ (pass.kind ≠ .signal → hasCoach pass.channels = true → d.ltu.measuring.isSome = true →
        d.ltu.measureTimer ≠ some (d.clock + 40000) → d.ltu.endedAt ≠ some d.clock →
        b.ltu.pass = some pass ∧ b.ltu.stop = true ∧ b.ltu.measuring = d.ltu.measuring)
    ∧ (pass.kind ≠ .signal → hasCoach pass.channels = true → d.ltu.measuring = none → d.ltu.window = .waiting →
        d.ltu.pendingRetest = false → d.ltu.pendingSignal = false → (∀ c ∈ d.ltu.channels, c.joins d.ftu = false) →
        b.ltu.pass = none ∧ b.ltu.stop = false ∧ b.ltu.measuring = none ∧ b.ltu.window = .none
        ∧ b.hcu.window = .none) := by
  obtain ⟨channels, age, ltu⟩ := u.ltu
  have stop : e.ltu.stop = (pass.kind != .signal && hasCoach pass.channels) := by
    rw [ltu, ← stoppable_eq p]
    show (d.ltu.stop || d.ltu.stoppable) = _
    rw [go, Bool.false_or]
  have falls : e.stopFalls =
      (e.ltu.stop && (d.ltu.measuring.isNone || d.ltu.measureTimer == some (d.clock + 40000))) := by
    unfold Device.stopFalls
    rw [u.clock, ltu]
    rfl
  refine ⟨fun other m => ?_, fun kind coach measures before m => ?_, fun kind coach idle waits r s joins => ?_⟩
  · have noStop : e.ltu.stop = false := by rcases other with k | k <;> simp [stop, k]
    rw [← noStop]
    exact unplugged_keeps u h p (by rw [falls, noStop, Bool.false_and]) m
  · have set : e.ltu.stop = true := by simp [stop, kind, coach]
    have running : (d.ltu.measuring.isNone || d.ltu.measureTimer == some (d.clock + 40000)) = false := by
      rw [Option.isNone_eq_false_iff.2 measures, beq_false_of_ne before, Bool.or_false]
    rw [← set]
    exact unplugged_keeps u h p (by rw [falls, running, Bool.and_false]) m
  · have set : e.ltu.stop = true := by simp [stop, kind, coach]
    have served := h.stopped (by rw [ltu]; exact Option.isSome_of_eq_some p) (by simp [falls, set, idle])
    have noJoin := corroborate_noJoin (u.joins (.inr joins))
    have kind : e.corroborate.passStopped.kindServed = none :=
      kindServed_eq_none (by show e.corroborate.ltu.pendingRetest = false; rw [noJoin, ltu]; exact r)
        (by show e.ltu.pendingSignal = false; rw [ltu]; exact s) (by show e.ltu.pendingFull = false; rw [ltu]; rfl)
    have gone : b.ltu.pass = none := by rw [served.pass, kind]; rfl
    have window : e.corroborate.ltu.window = .waiting := by
      show e.ltu.window = _
      rw [ltu]
      exact waits
    obtain ⟨released, -, limit, -, rest⟩ := served.released fun q k => by rw [gone] at k; cases k
    obtain ⟨measuring, -⟩ := rest gone
    refine ⟨gone, served.stop, measuring, released, (limit ?_).trans ?_⟩
    · simp [Device.passStopped, window]
    · simp [Device.passStopped, window]

end Unplug

/-! ### The obligation -/

/-- Settles O29: what a timer leaves stands as the station did, so that the bay stays in its phase and the serving of
the pending kinds is that of `PassesServed`; an unplug leaves a bay in VACANT or DEPARTING, which stays there. -/
theorem lampTimersMakePassesPending : Obligations.LampTimersMakePassesPending := by
  refine ⟨fun s t0 due => ?_, fun s t0 due => ?_, fun s t0 due => ?_, fun s t0 due => ?_, fun d n => ?_,
    fun ftu c => ?_, fun s t0 filter present empty prepared => ?_⟩
  · refine completesWith_of_close (exec_retestDue due) fun b f e p stop flags => ?_
    have h : InPhase (s.dev.retestDue t0) b := .of_standing f { SameStanding.refl s.dev with } e p
    have unchanged : (s.dev.retestDue t0).corroborate = s.dev.retestDue t0 := corroborate_eq_self flags
    have goesOn : (s.dev.retestDue t0).stopFalls = false := stopFalls_of_noStop stop
    obtain ⟨timer, -⟩ := h.timers
    refine ⟨timer, fun n m => ?_, fun pass set n m same found => retestDue_givesWay h unchanged goesOn n m same found,
      fun n => (retestDue_idle h unchanged n).1, fun n => (retestDue_idle h unchanged n).2⟩
    obtain ⟨-, -, kept⟩ := h.keeps n goesOn m
    rw [kept, unchanged]
    exact ⟨rfl, rfl⟩
  · refine completesWith_of_close (exec_fullDue due) fun b f e p stop flags => ?_
    have h : InPhase (s.dev.fullDue t0) b := .of_standing f { SameStanding.refl s.dev with } e p
    have unchanged : (s.dev.fullDue t0).corroborate = s.dev.fullDue t0 := corroborate_eq_self flags
    refine ⟨fun n m => ?_, fun n r signal => fullDue_idle h unchanged n r signal⟩
    obtain ⟨-, -, kept⟩ := h.keeps n (stopFalls_of_noStop stop) m
    rw [kept, unchanged]
    exact ⟨rfl, rfl, rfl⟩
  · refine completesWith_of_close (exec_signalDue due) fun b f e p stop heats flags => ?_
    have h : InPhase (s.dev.signalDue t0) b := .of_standing f { SameStanding.refl s.dev with } e p
    have unchanged : (s.dev.signalDue t0).corroborate = s.dev.signalDue t0 := corroborate_eq_self flags
    have goesOn : (s.dev.signalDue t0).stopFalls = false := stopFalls_of_noStop stop
    have pending : (s.dev.signalDue t0).ltu.pendingSignal = true := by simp [Device.signalDue, heats]
    obtain ⟨-, timer⟩ := h.timers
    refine ⟨timer, fun n m => ?_,
      fun pass set n k m r same found => signalDue_givesWay h unchanged goesOn pending n k m r same found,
      fun n r found => signalDue_idle h unchanged pending n r found⟩
    obtain ⟨-, -, kept⟩ := h.keeps n goesOn m
    rw [kept, unchanged]
    exact ⟨rfl, pending⟩
  · exact ⟨_, exec_lampAgeDue due, rfl, followed_close _ _, close_lampPending rfl⟩
  · obtain ⟨retest, signal, full⟩ := mem_passSet_kinds d n
    exact ⟨retest, signal, full, fun table => passSet_ascending table⟩
  · exact ⟨joins_iff ftu c, fun j => if_pos j, corroborated_leaves, corroborated_stays⟩
  · have x : exec .unplug s = .next { s with dev := close s.dev (s.dev.reach t0).unplugLink.unplugPhase } :=
      exec_next rfl ((if_pos ⟨present, empty⟩).trans (congrArg (s.dev.onExpiry · _) filter))
    have u := unplugPhase_unplugged (s.dev.reach t0) prepared
    have h := InPhase.of_unplugged (followed_close s.dev _) u.phase u.plug
    obtain ⟨timer, full, requests⟩ := unplugged_noFull u h
    exact ⟨_, x, timer, full, requests, fun pass p go => unplugged_pass u h p go⟩

end Sys2Proof.Machine
end

section
/-! THEOREMS. The measurement window of a pass with coach channels (`coachPassesWaitForTheWindow`): whether the HCU can
report the limit effective at once, and what the end of its settling time begins. -/

namespace Sys2Proof.Machine

/-! ### The window asked for (R75, R110) -/

/-- The state in which a window asked for stands: EFFECTIVE at once, or settling (R110). -/
def Device.windowGiven (d : Device) : HcuWindow := if d.hcu.stage ≤ d.windowStage then .effective else .settling

section Asked

variable (d : Device)

theorem windowGiven_congr {e : Device} (s : e.hcu.stage = d.hcu.stage) (w : e.windowStage = d.windowStage) :
    e.windowGiven = d.windowGiven := by
  unfold Device.windowGiven
  rw [s, w]

theorem hcuWindowRequest_window : d.hcuWindowRequest.hcu.window = d.windowGiven := by
  unfold Device.hcuWindowRequest Device.windowGiven
  split <;> rfl

theorem requestWindow_window : d.requestWindow.hcu.window = d.windowGiven := by
  unfold Device.requestWindow
  dsimp only
  split
  · rw [hcu_limitEffective]
    exact hcuWindowRequest_window _
  · exact hcuWindowRequest_window _

/-- A pass with coach channels that finds no window with the LTU asks for it (R75). -/
theorem startPass_window {pass : Pass} (c : hasCoach pass.channels = true) (w : d.ltu.window = .none) :
    (d.startPass pass).hcu.window = d.windowGiven := by
  have e : d.startPass pass = (d.onLtu fun ltu => { ltu with pass := some pass }).requestWindow := by
    simp [Device.startPass, c, w]
  rw [e]
  exact requestWindow_window _

theorem servePass_window {kind : PassKind} (c : hasCoach (d.passSet kind) = true) (w : d.ltu.window = .none) :
    (d.servePass kind).hcu.window = d.windowGiven := by
  have window : ((d.onLtu fun ltu => { ltu with met := ⟨ltu.requests, ltu.channels, ltu.fullTimer⟩ }).beginPass kind
      (d.passSet kind)).ltu.window = .none := by
    rw [beginPass_eq]
    cases kind <;> exact w
  refine (startPass_window _ c window).trans (windowGiven_congr d ?_ ?_)
  · rw [beginPass_eq]
    rfl
  · rw [beginPass_eq]
    rfl

/-- A free unit serves the first pending kind where it finds a channel (R70). -/
theorem servePasses_first {kind : PassKind} (n : Nat) (p : d.ltu.pass = none) (f : d.ltu.firstPending = some kind)
    (z : d.passSet kind ≠ []) : d.servePasses (n + 1) = d.servePass kind := by
  rw [Device.servePasses, p, f]
  simp [z]

theorem runLamps_window {kind : PassKind} (p : d.ltu.pass = none) (f : d.ltu.firstPending = some kind)
    (c : hasCoach (d.passSet kind) = true) (w : d.ltu.window = .none) : d.runLamps.hcu.window = d.windowGiven := by
  have z : d.passSet kind ≠ [] := fun z => by rw [z] at c; cases c
  rw [runLamps_noStop d (by rw [p]; rfl), servePasses_first d 3 p f z, servePass_window d c w]

/-- In an evaluated and settled bay the phase rules come to the corroboration and nothing else (R120). -/
theorem settlePhases_of_settled (n : Nat) (e : d.evaluated) (p : d.phaseSettled) :
    d.settlePhases n = d.corroborate := by
  rw [← refresh_of_evaluated d e]
  cases n with
  | zero => rfl
  | succ n => rw [Device.settlePhases, (nextPhase_none_of d e p).1]

/-- What comes after the lamp passes leaves the window as they have left it. -/
theorem close_window (before : Device) :
    (close before d).hcu.window = (d.settlePhases 8).lampsDone.hcu.window := by
  rw [(close_tail d before).hcu]
  unfold Device.watchPower
  rw [followMonitor_eq, releasePull_eq]

/-- The caps and the claim before the lamp passes lower the stage alone, of what a window request looks at. -/
theorem capped_le : d.forceClaim.capStage.hcu.stage ≤ d.hcu.stage
    ∧ d.forceClaim.capStage.windowStage = d.windowStage := by
  rw [forceClaim_eq]
  exact ⟨Nat.min_le_left _ _, rfl⟩

/-- With the claim not forced, a stage within the target as it was and as it is stays (R104). -/
theorem capped_eq (f : d.claimForced = false) (t : d.hcu.stage ≤ d.hcu.target) (n : d.hcu.stage ≤ d.targetStage) :
    d.forceClaim.capStage.hcu.stage = d.hcu.stage := by
  have same : d.forceClaim = d := by simp [Device.forceClaim, f]
  rw [same]
  exact Nat.min_eq_left (Nat.le_min.2 ⟨t, n⟩)

end Asked

/-- A window that is there caps the target stage (R102, R103). -/
theorem targetStage_le_windowStage {d : Device} (w : d.hcu.window ≠ .none) : d.targetStage ≤ d.windowStage := by
  have flag : d.hcu.windowFlag = true := by simp [Hcu.windowFlag, w]
  unfold Device.targetStage Device.underRejoin Device.underWindow
  rw [if_pos flag]
  split
  · exact Nat.zero_le _
  · split <;> omega

/-- The window that a following-up leaves where it asks for one, in an evaluated and settled bay with a free unit. -/
theorem close_asked {before d : Device} {kind : PassKind} (e : d.evaluated) (s : d.phaseSettled)
    (p : d.ltu.pass = none) (f : d.corroborate.ltu.firstPending = some kind)
    (c : hasCoach (d.corroborate.passSet kind) = true) (w : d.ltu.window = .none) :
    (close before d).hcu.window = d.corroborate.forceClaim.capStage.windowGiven := by
  have l : d.corroborate.forceClaim.capStage.ltu = d.corroborate.ltu := by rw [forceClaim_eq]; rfl
  have set : d.corroborate.forceClaim.capStage.passSet kind = d.corroborate.passSet kind :=
    passSet_congr (by rw [forceClaim_eq]; rfl) (by rw [l]) _ (.inr (by rw [l]))
  rw [close_window, settlePhases_of_settled d 8 e s]
  exact runLamps_window _ (by rw [l]; exact p) (by rw [l]; exact f) (by rw [set]; exact c) (by rw [l]; exact w)

/-! ### A full pass with coach channels falls due (R72, R75) -/

section FullDue

variable {d b : Device} {t : Nat}

/-- The kinds pending where a full pass falls due in a unit with none. -/
theorem fullDue_pending (r : d.ltu.pendingRetest = false) (s : d.ltu.pendingSignal = false)
    (j : ∀ c ∈ d.ltu.channels, c.joins d.ftu = false) :
    (d.fullDue t).corroborate.ltu.pendingRetest = false ∧ (d.fullDue t).corroborate.ltu.pendingSignal = false
      ∧ (d.fullDue t).corroborate.ltu.firstPending = some .full := by
  have l := corroborate_noJoin (d := d.fullDue t) j
  rw [l]
  refine ⟨r, s, ?_⟩
  unfold Ltu.firstPending
  rw [if_neg (by simp [Device.fullDue, r]), if_neg (by simp [Device.fullDue, s])]
  rfl

/-- A fitted coach channel is in the set of a full pass in PREPARING..CLEARED (R72). -/
theorem fullDue_hasCoach (p : d.cu.phase.prepared = true) (f : ∃ c ∈ d.ltu.channels, c.num ≤ 16 ∧ c.status ≠ .off) :
    hasCoach ((d.fullDue t).corroborate.passSet .full) = true := by
  obtain ⟨c, m, n, fitted⟩ := f
  obtain ⟨num, status⟩ := corroborated_keeps d.ftu c
  have listed : c.num ∈ (d.fullDue t).corroborate.passSet .full := by
    refine (mem_passSet_iff _ _ _).2 ⟨c.corroborated d.ftu, List.mem_map_of_mem m, num, ?_⟩
    have prepared : (d.fullDue t).corroborate.cu.phase.prepared = true := p
    simp [Device.inPass, fitted_iff, status, fitted, prepared]
  exact List.any_eq_true.2 ⟨_, listed, decide_eq_true n⟩

/-- A full pass with coach channels that falls due in a free unit asks for the window and begins, or waits for it (R72,
R75). -/
theorem fullDue_begins (h : InPhase (d.fullDue t) b) (n : d.ltu.pass = none) (r : d.ltu.pendingRetest = false)
    (s : d.ltu.pendingSignal = false) (j : ∀ c ∈ d.ltu.channels, c.joins d.ftu = false)
    (coach : hasCoach ((d.fullDue t).corroborate.passSet .full) = true) (w : d.ltu.window = .none)
    (m : d.ltu.measuring = none) :
    b.ltu.pass.isSome = true ∧ b.ltu.pendingFull = false ∧ b.ltu.fullTimer = some (max d.clock t + 600000000)
      ∧ (d.fullDue t).windowAsked b = true
      ∧ ((b.ltu.window = .held ∧ b.hcu.window = .effective ∧ b.ltu.measuring.isSome = true)
        ∨ (b.ltu.window = .waiting ∧ b.hcu.window = .settling ∧ b.hcu.settling = some (max d.clock t + 100000)
          ∧ b.ltu.measuring = none)) := by
  have served := h.idle n
  obtain ⟨retest, signal, first⟩ := fullDue_pending (t := t) r s j
  have found : (d.fullDue t).corroborate.passSet .full ≠ [] := fun z => by rw [z] at coach; cases coach
  have kind : (d.fullDue t).corroborate.kindServed = some PassKind.full :=
    (kindServed_fullAtMost (.inl retest) (.inl signal)).trans (if_pos ⟨rfl, found⟩)
  have asks : (d.fullDue t).corroborate.asksWindow = true := by
    unfold Device.asksWindow
    rw [kind]
    have noWindow : (d.fullDue t).corroborate.ltu.window = .none := w
    simp [coach, noWindow]
  obtain ⟨begun, -, -, gone⟩ := served.of_kind kind
  have gone : b.ltu.pendingFull = false := gone.trans (Bool.and_false _)
  obtain ⟨timer, -⟩ := served.full
  have windowed := served.windowed _ begun coach
  rw [if_pos asks] at windowed
  have free : ((d.fullDue t).atPasses b).ltu.pass = none := by rw [h.ltu]; exact n
  refine ⟨by rw [begun]; rfl, gone, timer.trans (if_pos ⟨rfl, gone⟩), ?_, ?_⟩
  · unfold Device.windowAsked
    rw [free]
    exact (served_congr h.ltu h.phase).2.trans asks
  · rcases windowed with ⟨held, effective, measuring, -⟩ | ⟨waiting, settling, deadline, measuring, -⟩
    · refine .inl ⟨held, effective, ?_⟩
      rw [measuring, List.isSome_head?]
      simp [found]
    · exact .inr ⟨waiting, settling, deadline, measuring.trans m⟩

/-- Where the window has been asked for the target is worked out again, and the stage lowered within the window stage
(R102, R103). -/
theorem asked_lowered {a : Device} (f : Followed a b) (asked : a.windowAsked b = true) (w : b.hcu.window ≠ .none) :
    b.hcu.stage ≤ b.windowStage ∧ b.hcu.target = b.targetStage := by
  obtain ⟨-, -, heater, -, -, -⟩ := f
  have target : b.hcu.target = b.targetStage := heater.target.trans (if_pos asked)
  refine ⟨?_, target⟩
  have cap := targetStage_le_windowStage w
  rw [heater.stage, target]
  omega

end FullDue

/-! ### The settling time is over (R110) -/

/-- What is left where the settling time of the window has run out (R110). -/
def Device.settled (d : Device) (t : Nat) : Device :=
  { d with clock := max d.clock t, hcu := { d.hcu with window := .effective, settling := none } }

theorem exec_settled {s : State} {t : Nat} (h : s.dev.hcu.settling = some t) :
    exec .windowSettlingExpiry s = .next { s with dev := close s.dev (s.dev.settled t).limitEffective } :=
  exec_next rfl (congrArg (s.dev.onExpiry · _) h)

/-- The limit effective begins the measurement of a pass that waits for it (R75). -/
theorem limitEffective_waiting {d : Device} {pass : Pass} (w : d.ltu.window = .waiting) (p : d.ltu.pass = some pass) :
    d.limitEffective = { d with
      ltu := { d.ltu with
        window := .held, measuring := pass.remaining.head?, measureTimer := some (d.clock + 40000) } } := by
  unfold Device.limitEffective
  rw [if_pos w]
  exact beginMeasurement_eq (pass := pass) _ p

/-- A limit effective that the LTU does not wait for is ignored (R75, R76). -/
theorem limitEffective_ignored {d : Device} (w : d.ltu.window ≠ .waiting) : d.limitEffective = d := if_neg w

/-! ### The obligation -/

/-- Settles O30: a full pass over coach channels asks for the window, which is given by the stage it meets
(`close_asked`); the end of the settling time begins the measurement, which goes on. -/
theorem coachPassesWaitForTheWindow : Obligations.CoachPassesWaitForTheWindow := by
  refine ⟨fun s t0 due e p prepared _ n m w _ r signal j fitted => ?_,
    fun s t0 k pass rest due e p stop w n remaining ended => ?_, fun s t0 due w => ?_⟩
  · have standing : SameStanding s.dev (s.dev.fullDue t0) := { SameStanding.refl s.dev with }
    have f := followed_close s.dev (s.dev.fullDue t0)
    have coach := fullDue_hasCoach (t := t0) prepared fitted
    obtain ⟨pass, gone, timer, asked, window⟩ := fullDue_begins (.of_standing f standing e p) n r signal j coach w m
    have there : (close s.dev (s.dev.fullDue t0)).hcu.window ≠ .none := by
      rcases window with ⟨-, k, -⟩ | ⟨-, k, -⟩ <;> rw [k] <;> decide
    obtain ⟨within, target⟩ := asked_lowered f asked there
    obtain ⟨-, -, first⟩ := fullDue_pending (t := t0) r signal j
    have given := close_asked (before := s.dev) (standing.evaluated e) (standing.phaseSettled p) n first coach w
    obtain ⟨lower, same⟩ := capped_le (s.dev.fullDue t0).corroborate
    refine ⟨_, exec_fullDue due, within, pass, gone, target, timer, fun below => ?_, fun above t1 t2 forced => ?_⟩
    · rw [Device.windowGiven, if_pos (by rw [same]; exact lower.trans below)] at given
      rcases window with ⟨held, k, measures⟩ | ⟨-, k, -⟩
      · exact ⟨k, held, measures⟩
      · rw [given] at k
        cases k
    · have stage := capped_eq (s.dev.fullDue t0).corroborate forced t1 t2
      rw [Device.windowGiven, if_neg (by rw [same, stage]; exact Nat.not_le.2 above)] at given
      rcases window with ⟨-, k, -⟩ | ⟨waiting, k, deadline, idle⟩
      · rw [given] at k
        cases k
      · exact ⟨k, deadline, waiting, idle⟩
  · have f := followed_close s.dev (s.dev.settled t0).limitEffective
    have x := exec_settled due
    rw [limitEffective_waiting (d := s.dev.settled t0) w n] at f x
    have h := InPhase.of_standing f { SameStanding.refl s.dev with } e p
    obtain ⟨window, settling, ltu⟩ := h.keeps (Option.isSome_of_eq_some n) (stopFalls_of_noStop stop) ended
    refine ⟨_, x, rfl, h.clock, window, settling, ?_⟩
    rw [ltu]
    exact ⟨rfl, congrArg List.head? remaining, rfl, n⟩
  · have x := exec_settled due
    rw [limitEffective_ignored (d := s.dev.settled t0) w] at x
    exact completes_of_close x

end Sys2Proof.Machine
end

section
/-! THEOREMS. The demand arithmetic of a tick: warming energy and holding power (`energyAndHoldingPower`), claim, reach
time and slack, and the ticks at which the HP does not run or has no usable cabin temperature (`claimAndSlack`). -/

namespace Sys2Proof.Machine

/-! ### Energy and power from a temperature difference (R87, R88) -/

/-- The half of a factor times a temperature difference, rounded up: 0 for a difference below 0, as both rules cut it
off. -/
theorem halfProduct_bounds (factor : Nat) (x : Int) :
    (factor : Int) * max x 0 ≤ 2 * (ceilDiv (factor * x.toNat) 2 : Nat)
      ∧ 2 * ((ceilDiv (factor * x.toNat) 2 : Nat) : Int) < factor * max x 0 + 2 := by
  have cast : (factor : Int) * max x 0 = (factor * x.toNat : Nat) := by rw [Nat.cast_mul, Int.ofNat_toNat]
  rw [cast]
  unfold ceilDiv
  omega

theorem halfProduct_le {factor top range : Nat} {x : Int} (f : factor ≤ top) (r : x ≤ 2 * range) :
    ceilDiv (factor * x.toNat) 2 ≤ top * range := by
  have product : factor * x.toNat ≤ top * (2 * range) := Nat.mul_le_mul f (by omega)
  rw [Nat.mul_left_comm] at product
  unfold ceilDiv
  omega

theorem halfProduct_zero (factor : Nat) {x : Int} (n : x ≤ 0) : ceilDiv (factor * x.toNat) 2 = 0 := by
  rw [Int.toNat_eq_zero.2 n, Nat.mul_zero]
  rfl

theorem warmingPower_zero (minutes : Nat) : warmingPower 0 minutes = 0 := by
  unfold warmingPower ceilDiv
  exact Nat.div_eq_of_lt (by omega)

/-! ### The HP's values of a tick (R84, R85, R93) -/

theorem prepared_iff (p : Phase) :
    p.prepared = true ↔ p = .preparing ∨ p = .ready ∨ p = .clearing ∨ p = .cleared := by
  cases p <;> simp [Phase.prepared]

theorem heats_iff (m : Mode) : m.heats = true ↔ m = .run ∨ m = .isolated := by
  cases m <;> simp [Mode.heats]

section Values

variable {d : Device}

/-- The HP runs in PREPARING..CLEARED with the plan MATCHED, in RUN and ISOLATED (R84). -/
theorem hpRuns_iff :
    d.hpRuns = true ↔ d.cu.phase.prepared = true ∧ d.cu.matchState = .matched ∧ d.sc.mode.heats = true := by
  simp [Device.hpRuns, and_assoc]

/-- A plan that is MATCHED is stored, and the identity it matches is held (R6). -/
theorem matched_holds (e : d.evaluated) (m : d.cu.matchState = .matched) :
    d.cu.plan.isSome = true ∧ d.identity.isSome = true := by
  obtain ⟨found, -, -⟩ := e
  rw [m] at found
  unfold Device.evalMatch at found
  split at found
  · next plan id p i => exact ⟨by rw [p]; rfl, by rw [i]; rfl⟩
  · cases found

theorem hpValues_idle (n : d.hpRuns = false) : d.hpValues = d.hp.idle := by
  unfold Device.hpValues
  rw [n]

variable {id : CoachIdentity} {plan : Plan} (r : d.hpRuns = true) (p : d.cu.plan = some plan)
  (i : d.identity = some id)

include r p i

theorem hpValues_computed {tc : Int} (u : d.clc.usableTc = some tc) :
    d.hpValues = d.hp.computed id plan tc d.hcu.locked := by
  unfold Device.hpValues
  rw [r, p, i, u]

theorem hpValues_withoutTc (u : d.clc.usableTc = none) : d.hpValues = d.hp.withoutTc id plan := by
  unfold Device.hpValues
  rw [r, p, i, u]

end Values

/-- In NONE and STALE no cabin temperature is usable (R35, R85). -/
theorem usableTc_none {clc : Clc} (h : clc.tcState = .none ∨ clc.tcState = .stale) : clc.usableTc = none := by
  unfold Clc.usableTc
  rcases h with h | h <;> rw [h]

/-- Settles O31: both are the half of a product with a temperature difference (`halfProduct_bounds`). -/
theorem energyAndHoldingPower : Obligations.EnergyAndHoldingPower := by
  intro d id plan tc r p i u c1 c2 l1 l2 t1 t2 tc1 tc2 to1 to2
  rw [hpValues_computed r p i u]
  obtain ⟨ewLow, ewHigh⟩ := halfProduct_bounds id.capacity (plan.target - tc)
  obtain ⟨pmLow, pmHigh⟩ := halfProduct_bounds id.loss (plan.target - d.hp.toInUse)
  have ewTop : warmingEnergy id.capacity (plan.target - tc) ≤ 2500 * 64 := halfProduct_le c2 (by omega)
  have pmTop : holdingPower id.loss plan.target d.hp.toInUse ≤ 1000 * 64 := halfProduct_le l2 (by omega)
  refine ⟨rfl, ?_, ?_, ewLow, ewHigh, ewTop, fun warm => ?_, pmLow, pmHigh, pmTop, fun mild => ?_⟩
  · show -80 ≤ plan.target - tc
    omega
  · show plan.target - tc ≤ 128
    omega
  · have ew : warmingEnergy id.capacity (plan.target - tc) = 0 := halfProduct_zero id.capacity warm
    refine ⟨ew, ?_⟩
    show warmingPower (warmingEnergy id.capacity (plan.target - tc)) plan.minutes + _ = _
    rw [ew, warmingPower_zero, Nat.zero_add]
    rfl
  · exact halfProduct_zero id.loss (by omega)

/-! ### Reach time and slack (R91, R92) -/

section Reach

variable {ew pm rating : Nat}

theorem cannotReach_iff : cannotReach ew pm rating = true ↔ 0 < ew ∧ rating * 250 ≤ pm := by
  unfold cannotReach
  rw [Bool.and_eq_true, decide_eq_true_iff, decide_eq_true_iff]
  rfl

theorem reachTime_zero : reachTime 0 pm rating = 0 := rfl

theorem reachTime_unreachable (e : 0 < ew) (f : rating * 250 ≤ pm) : reachTime ew pm rating = 1080 := by
  unfold reachTime
  rw [if_neg (Nat.pos_iff_ne_zero.1 e), if_pos (show fullPower rating ≤ pm from f)]

theorem reachTime_reachable (e : 0 < ew) (f : pm < rating * 250) : reachTime ew pm rating =
    min 1080 ((ew * 1000 + (rating * 250 - pm) * 60 - 1) / ((rating * 250 - pm) * 60)) := by
  unfold reachTime
  rw [if_neg (Nat.pos_iff_ne_zero.1 e), if_neg (show ¬ fullPower rating ≤ pm from Nat.not_le.2 f)]
  rfl

theorem reachTime_le : reachTime ew pm rating ≤ 1080 := by
  unfold reachTime
  split
  · omega
  · split
    · exact le_rfl
    · exact Nat.min_le_left _ _

variable {minutes : Nat}

theorem slackOf_unreachable (u : cannotReach ew pm rating = true) : slackOf minutes ew pm rating = 1080 := if_pos u

theorem slackOf_reachable (u : cannotReach ew pm rating = false) :
    slackOf minutes ew pm rating = (minutes : Int) - reachTime ew pm rating := by
  unfold slackOf
  rw [u]
  rfl

theorem slackOf_range (m : minutes ≤ 1080) :
    -1080 ≤ slackOf minutes ew pm rating ∧ slackOf minutes ew pm rating ≤ 1080 := by
  have time : reachTime ew pm rating ≤ 1080 := reachTime_le
  unfold slackOf
  split <;> omega

end Reach

theorem locked_iff (hcu : Hcu) : hcu.locked = true ↔ hcu.faultLockout = true ∨ hcu.overLockout = true := by
  simp [Hcu.locked]

/-- Settles O32: each tick is one of the three of `Device.hpValues`, and the claim, the reach time and the slack of a
full computation are those of their formulas. -/
theorem claimAndSlack : Obligations.ClaimAndSlack := by
  refine ⟨fun d id plan tc ew pm qraw pfull r p i u m ew' pm' qraw' pfull' => ?_, fun d n => hpValues_idle n,
    fun d id plan r p i unusable => hpValues_withoutTc r p i (usableTc_none unusable),
    fun d => ⟨?_, fun e r => ?_⟩⟩
  · rw [hpValues_computed r p i u] at ew' pm' qraw' ⊢
    subst ew' pm' qraw' pfull'
    refine ⟨rfl, rfl, fun fault overcurrent => ?_, fun lockout => if_pos ((locked_iff d.hcu).2 lockout),
      decide_eq_true_iff, cannotReach_iff, fun zero => ?_, reachTime_unreachable, reachTime_reachable,
      slackOf_unreachable, slackOf_reachable, (slackOf_range m).1, (slackOf_range m).2, rfl⟩
    · refine if_neg fun locked => ?_
      rcases (locked_iff d.hcu).1 locked with k | k
      · rw [fault] at k; cases k
      · rw [overcurrent] at k; cases k
    · exact (congrArg (reachTime · _ _) zero).trans reachTime_zero
  · rw [hpRuns_iff, prepared_iff, heats_iff]
  · obtain ⟨-, m, -⟩ := hpRuns_iff.1 r
    exact matched_holds e m

end Sys2Proof.Machine
end

section
/-! SUPPORT. What the work of a claim tick leaves before its following-up (`exec_ticked`): each part of the work said
once, in the order of R99. -/

namespace Sys2Proof.Machine

/-! ### The rejoin period and the probe (R86, R161) -/

section Parts

variable (d : Device)

/-- The tick is the second of a rejoin period, which ends at it (R161). -/
def Device.rejoinEnds (d : Device) : Bool :=
  match d.sc.rejoin with
  | none => false
  | some n => decide (n ≤ 1)

theorem rejoinEnds_iff : d.rejoinEnds = true ↔ ∃ n, d.sc.rejoin = some n ∧ n ≤ 1 := by
  unfold Device.rejoinEnds
  cases d.sc.rejoin <;> simp

theorem countRejoin_eq : d.countRejoin =
    { d with
      sc := { d.sc with
        mode := if d.rejoinEnds = true then .run else d.sc.mode,
        rejoin := if d.rejoinEnds = true then none else d.sc.rejoin.map (· - 1) },
      hcu := { d.hcu with rejoinCap := if d.rejoinEnds = true then none else d.hcu.rejoinCap } } := by
  unfold Device.countRejoin Device.rejoinEnds
  cases h : d.sc.rejoin with
  | none =>
    show d = { d with sc := { d.sc with rejoin := none } }
    rw [← h]
  | some n =>
    by_cases l : n ≤ 1
    · simp [l, Device.endRejoin, Device.onSc, Device.onHcu]
    · simp [l, Device.onSc]

theorem readProbe_eq (probe : Int) : d.readProbe probe =
    { d with
      sc := { d.sc with
        alarms := { d.sc.alarms with
          probeFault := d.sc.alarms.probeFault || decide (probe < -90 ∨ 110 < probe) } },
      hp := { d.hp with
        toInUse := if -90 ≤ probe ∧ probe ≤ 110 then max (-80) (min 100 probe) else d.hp.probeLast.getD (-60),
        probeLast := if -90 ≤ probe ∧ probe ≤ 110 then some (max (-80) (min 100 probe)) else d.hp.probeLast } } := by
  have good : probeGood probe = true ↔ -90 ≤ probe ∧ probe ≤ 110 := by simp [probeGood]
  unfold Device.readProbe
  by_cases h : -90 ≤ probe ∧ probe ≤ 110
  · have n : decide (probe < -90 ∨ 110 < probe) = false := decide_eq_false (by omega)
    rw [if_pos (good.2 h), if_pos h, if_pos h, n, Bool.or_false]
    rfl
  · have n : decide (probe < -90 ∨ 110 < probe) = true := decide_eq_true (by omega)
    rw [if_neg (mt good.1 h), if_neg h, if_neg h, n, Bool.or_true]
    rfl

/-! ### The HP (R94, R96) -/

/-- HEAT reached as a tick evaluates it (R96). -/
def Device.reachedNow (d : Device) : Bool :=
  match d.cu.phase.identified, d.cu.plan, d.clc.usableTc with
  | true, some plan, some tc =>
    if d.hp.reached = true then decide (plan.target - 6 ≤ tc) else decide (plan.target - 2 ≤ tc)
  | _, _, _ => d.hp.reached

theorem evalReached_eq : d.evalReached = d.onHp fun hp => { hp with reached := d.reachedNow } := by
  have after (tc target : Int) : reachedAfter d.hp.reached tc target =
      if d.hp.reached = true then decide (target - 6 ≤ tc) else decide (target - 2 ≤ tc) := by
    unfold reachedAfter
    rw [← decide_not]
    simp only [Int.not_lt]
  unfold Device.evalReached Device.reachedNow
  cases d.cu.phase.identified <;> cases d.cu.plan <;> cases d.clc.usableTc
  case true.some.some plan tc => exact congrArg (fun r => d.onHp fun hp => { hp with reached := r }) (after _ _)
  all_goals rfl

/-- The computation of a tick reads the temperature outside, and neither writes it nor what is kept beside it. -/
theorem hpValues_keeps : d.hpValues.toInUse = d.hp.toInUse ∧ d.hpValues.probeLast = d.hp.probeLast
    ∧ d.hpValues.reached = d.hp.reached ∧ d.hpValues.firstRun = d.hp.firstRun := by
  unfold Device.hpValues
  split
  · split <;> exact ⟨rfl, rfl, rfl, rfl⟩
  · exact ⟨rfl, rfl, rfl, rfl⟩

theorem markFirstRun_eq : d.markFirstRun =
    { d with
      sc := { d.sc with heat := if (d.hpRuns && d.hp.firstRun) = true then d.sc.heat.touch else d.sc.heat },
      hp := { d.hp with firstRun := d.hp.firstRun && !(d.hpRuns && d.hp.firstRun) } } := by
  unfold Device.markFirstRun
  cases f : d.hpRuns && d.hp.firstRun with
  | true => simp [Device.onHp, Device.touchHeat, Device.onSc]
  | false => simp

/-! ### Stage, energy and NOTICE (R99, R105, R116) -/

/-- The choice of a tick lowers the stage to the target or leaves it, and writes target and pending raise beside it
(R105). -/
theorem choose_eq (hcu : Hcu) (target : Nat) : hcu.choose target =
    { hcu with target := target, stage := min hcu.stage target, raise := (hcu.choose target).raise } := by
  unfold Hcu.choose
  split
  · next h => rw [Nat.min_eq_right h]
  · next h =>
    have same : min hcu.stage target = hcu.stage := Nat.min_eq_left (by omega)
    split <;> rw [same]

/-- A raise that a tick prepares is one of one step, within the target (R105). -/
theorem choose_raise {hcu : Hcu} {target r : Nat} (h : (hcu.choose target).raise = some r) :
    r ≤ target ∧ r ≤ (hcu.choose target).stage + 1 := by
  unfold Hcu.choose at h ⊢
  split at h
  · cases h
  · split at h
    · cases h
    · next above held =>
      rw [if_neg above, if_neg held]
      obtain rfl := Option.some.inj h
      exact ⟨Nat.min_le_left _ _, Nat.min_le_right _ _⟩

theorem countEnergy_eq (stage : Nat) : d.countEnergy stage = d.onHcu fun hcu =>
    match d.identity with
    | none => hcu
    | some id =>
      { hcu with
        energy := min 4294967295 (hcu.energy + id.rating * 500 * stage / id.stages),
        sat := hcu.sat || decide (4294967295 < hcu.energy + id.rating * 500 * stage / id.stages) } := by
  unfold Device.countEnergy
  cases d.identity with
  | none => rfl
  | some id =>
    have added (hcu : Hcu) (n : Nat) : hcu.addEnergy n =
        { hcu with energy := min 4294967295 (hcu.energy + n), sat := hcu.sat || decide (4294967295 < hcu.energy + n) } := by
      unfold Hcu.addEnergy
      by_cases h : hcu.energy + n ≤ 4294967295
      · rw [if_pos (show hcu.energy + n ≤ Config.energyMax from h), Nat.min_eq_right h,
          decide_eq_false (Nat.not_lt.2 h), Bool.or_false]
      · rw [if_neg (show ¬ hcu.energy + n ≤ Config.energyMax from h), Nat.min_eq_left (by omega),
          decide_eq_true (by omega), Bool.or_true]
        rfl
    exact congrArg (fun hcu => { d with hcu := hcu }) (added d.hcu _)

theorem requestNotice_eq :
    d.requestNotice = d.onLu fun lu => { lu with unbegun := lu.unbegun || d.sc.mode.speaks } := by
  unfold Device.requestNotice
  cases d.sc.mode.speaks <;> simp [Device.onLu]

end Parts

/-! ### The whole of a tick -/

/-- The station whose tick has fallen, with the rejoin period counted and the probe read (R86, R98, R161). -/
def Device.tickRead (d : Device) (t : Nat) (probe : Int) : Device :=
  { d with
    clock := max d.clock t,
    sc := { d.sc with
      mode := if d.rejoinEnds = true then .run else d.sc.mode,
      rejoin := if d.rejoinEnds = true then none else d.sc.rejoin.map (· - 1),
      alarms := { d.sc.alarms with
        probeFault := d.sc.alarms.probeFault || decide (probe < -90 ∨ 110 < probe) } },
    hp := { d.hp with
      toInUse := if -90 ≤ probe ∧ probe ≤ 110 then max (-80) (min 100 probe) else d.hp.probeLast.getD (-60),
      probeLast := if -90 ≤ probe ∧ probe ≤ 110 then some (max (-80) (min 100 probe)) else d.hp.probeLast },
    hcu := { d.hcu with
      claimTimer := some (t + 2000000), rejoinCap := if d.rejoinEnds = true then none else d.hcu.rejoinCap } }

/-- The tick is the first at which the HP runs since HEAT became INITIAL (R94). -/
def Device.tickFirst (d : Device) (t : Nat) (probe : Int) : Bool := (d.tickRead t probe).hpRuns && d.hp.firstRun

/-- The demand of the tick worked out and HEAT reached evaluated (R84 to R96). -/
def Device.tickReady (d : Device) (t : Nat) (probe : Int) : Device :=
  { d.tickRead t probe with
    hp := { (d.tickRead t probe).hpValues with
      reached := d.reachedNow, firstRun := d.hp.firstRun && !d.tickFirst t probe } }

/-- The HCU with the grant of the tick taken (R99 step 2). -/
def Device.tickGranted (d : Device) (t : Nat) (probe : Int) : Hcu :=
  { (d.tickReady t probe).hcu with grant := (d.tickReady t probe).grantNow }

/-- The target stage of the tick (R102). -/
def Device.tickTarget (d : Device) (t : Nat) (probe : Int) : Nat :=
  ({ d.tickReady t probe with hcu := d.tickGranted t probe }).targetStage

/-- The HCU with its stage chosen (R99 step 3). -/
def Device.tickChosen (d : Device) (t : Nat) (probe : Int) : Hcu :=
  (d.tickGranted t probe).choose (d.tickTarget t probe)

/-- What the work of the tick leaves (R99). -/
def Device.ticked (d : Device) (t : Nat) (probe : Int) : Device :=
  { d.tickReady t probe with
    sc := { (d.tickReady t probe).sc with
      heat := if d.tickFirst t probe = true then d.sc.heat.touch else d.sc.heat },
    hcu :=
      match d.identity with
      | none => d.tickChosen t probe
      | some id =>
        { d.tickChosen t probe with
          energy := min 4294967295 (d.hcu.energy + id.rating * 500 * d.hcu.stage / id.stages),
          sat := d.hcu.sat
            || decide (4294967295 < d.hcu.energy + id.rating * 500 * d.hcu.stage / id.stages) },
    cu := { d.cu with retryHold := false },
    lu := { d.lu with unbegun := d.lu.unbegun || (d.tickReady t probe).sc.mode.speaks } }

section Tick

variable (d : Device) (t : Nat) (probe : Int)

theorem tickRead_eq :
    ((d.reach t).onHcu fun hcu => { hcu with claimTimer := some (t + 2000000) }).countRejoin.readProbe probe
      = d.tickRead t probe := by
  rw [readProbe_eq, countRejoin_eq]
  rfl

/-- The HP's work of a tick (R84 to R96). -/
theorem hpTick_eq :
    ((d.reach t).onHcu fun hcu => { hcu with claimTimer := some (t + 2000000) }).countRejoin.hpTick probe =
      { d.tickReady t probe with
        sc := { (d.tickReady t probe).sc with
          heat := if d.tickFirst t probe = true then d.sc.heat.touch else d.sc.heat } } := by
  obtain ⟨-, -, reached, firstRun⟩ := hpValues_keeps (d.tickRead t probe)
  have now : ((d.tickRead t probe).onHp fun _ => (d.tickRead t probe).hpValues).reachedNow = d.reachedNow := by
    unfold Device.reachedNow
    rw [Device.onHp_hp, reached]
    rfl
  unfold Device.hpTick
  dsimp only
  rw [tickRead_eq, markFirstRun_eq, evalReached_eq, now]
  show ({ d.tickRead t probe with
      sc := { (d.tickRead t probe).sc with
        heat := if ((d.tickRead t probe).hpRuns && (d.tickRead t probe).hpValues.firstRun) = true
          then d.sc.heat.touch else d.sc.heat },
      hp := { (d.tickRead t probe).hpValues with
        reached := d.reachedNow,
        firstRun := (d.tickRead t probe).hpValues.firstRun
          && !((d.tickRead t probe).hpRuns && (d.tickRead t probe).hpValues.firstRun) } } : Device) = _
  rw [firstRun]
  rfl

theorem claimTick_eq :
    ((d.reach t).onHcu fun hcu => { hcu with claimTimer := some (t + 2000000) }).claimTick probe
      = d.ticked t probe := by
  have chosen := choose_eq (d.tickGranted t probe) (d.tickTarget t probe)
  have energy : (d.tickChosen t probe).energy = d.hcu.energy := by
    unfold Device.tickChosen
    rw [chosen]
    rfl
  have sat : (d.tickChosen t probe).sat = d.hcu.sat := by
    unfold Device.tickChosen
    rw [chosen]
    rfl
  unfold Device.claimTick Device.hcuTick
  dsimp only
  rw [hpTick_eq, requestNotice_eq, countEnergy_eq]
  unfold Device.ticked
  rw [← energy, ← sat]
  rfl

/-- CLAIM_TICK closes on the work of the tick (R98, R99). -/
theorem exec_ticked {s : State} (h : s.dev.hcu.claimTimer = some t) :
    exec (.claimTick probe) s = .next { s with dev := close s.dev (s.dev.ticked t probe) } := by
  have due : Timer.next s.dev.hcu.claimTimer Config.claimPeriod = some (t + 2000000) := by
    rw [h]
    rfl
  refine exec_next rfl ((congrArg (s.dev.onExpiry · _) h).trans ?_)
  rw [Device.onExpiry_some, ← claimTick_eq]
  exact congrArg
    (fun timer => close s.dev (((s.dev.reach t).onHcu fun hcu => { hcu with claimTimer := timer }).claimTick probe)) due

end Tick

end Sys2Proof.Machine
end

section
/-! SUPPORT. What a following-up leaves of demand, grant and stage in a bay that it does not take into or out of heat
computation (`Device.Steady`), and that it keeps the change mark of HEAT (`HeatMarkStays`). -/

namespace Sys2Proof.Machine

/-! ### The change mark of HEAT (R13) -/

/-- HEAT is DIRTY with its change mark set in `e` where it is so in `d`. -/
def HeatMarkStays (d e : Device) : Prop := d.sc.heat = ⟨.dirty, true⟩ → e.sc.heat = ⟨.dirty, true⟩

theorem touch_dirty : Section.touch ⟨.dirty, true⟩ = ⟨.dirty, true⟩ := rfl

/-- A section that is not OFF is DIRTY with its change mark set when its content has changed (R13). -/
theorem touch_of_on {x : Section} (h : x.status ≠ .off) : x.touch = ⟨.dirty, true⟩ := if_neg h

namespace HeatMarkStays

theorem of_heat {d e : Device} (h : e.sc.heat = d.sc.heat) : HeatMarkStays d e := fun k => h.trans k

theorem trans {a b c : Device} (h : HeatMarkStays a b) (k : HeatMarkStays b c) : HeatMarkStays a c := k ∘ h

variable (d : Device)

theorem refl : HeatMarkStays d d := of_heat rfl

theorem onLtu (f : Ltu → Ltu) : HeatMarkStays d (d.onLtu f) := of_heat rfl

theorem touchHeat : HeatMarkStays d d.touchHeat := fun k => (congrArg Section.touch k).trans touch_dirty

theorem markLamp (before : Device) : HeatMarkStays d (before.markLamp d) := by
  unfold Device.markLamp
  split <;> exact of_heat rfl

theorem hcuWindowRequest : HeatMarkStays d d.hcuWindowRequest := by
  unfold Device.hcuWindowRequest
  split <;> exact (of_heat rfl).trans (touchHeat _)

theorem releaseWindow : HeatMarkStays d d.releaseWindow := by
  unfold Device.releaseWindow Device.hcuWindowRelease
  split
  · exact refl d
  · split
    · exact onLtu d _
    · exact (of_heat rfl).trans (touchHeat _)

theorem beginMeasurement : HeatMarkStays d d.beginMeasurement := by
  unfold Device.beginMeasurement
  split <;> exact of_heat rfl

theorem limitEffective : HeatMarkStays d d.limitEffective := by
  unfold Device.limitEffective
  split
  · exact (onLtu d _).trans (beginMeasurement _)
  · exact refl d

theorem requestWindow : HeatMarkStays d d.requestWindow := by
  have asked := (onLtu d fun ltu => { ltu with window := .waiting }).trans (hcuWindowRequest _)
  unfold Device.requestWindow
  dsimp only
  split
  · exact asked.trans (limitEffective _)
  · exact asked

theorem startPass (pass : Pass) : HeatMarkStays d (d.startPass pass) := by
  unfold Device.startPass
  split
  · dsimp only
    split
    · exact (onLtu d _).trans (beginMeasurement _)
    · exact onLtu d _
    · exact (onLtu d _).trans (requestWindow _)
  · exact ((releaseWindow d).trans (onLtu _ _)).trans (beginMeasurement _)

theorem beginPass (kind : PassKind) (set : List Nat) : HeatMarkStays d (d.beginPass kind set) := by
  cases kind <;> exact (onLtu d _).trans (markLamp _ d)

theorem servePass (kind : PassKind) : HeatMarkStays d (d.servePass kind) :=
  (onLtu d _).trans ((beginPass _ _ _).trans (startPass _ _))

theorem servePasses (n : Nat) : HeatMarkStays d (d.servePasses n) := by
  induction n generalizing d with
  | zero => exact refl d
  | succ n ih =>
    unfold Device.servePasses
    split
    · exact releaseWindow d
    · split
      · exact ((beginPass d _ _).trans ((releaseWindow _).trans (onLtu _ _))).trans (ih _)
      · exact servePass d _
    · exact refl d
    · split
      · split
        · exact (beginPass d _ _).trans (ih _)
        · exact (onLtu d _).trans (servePass _ _)
      · exact refl d

theorem runLamps : HeatMarkStays d d.runLamps := by
  have stopped : HeatMarkStays d d.takeStop := by
    unfold Device.takeStop Device.stopPass
    split
    · dsimp only
      split
      · exact (of_heat (e := d.dropPass) rfl).trans (releaseWindow _)
      · exact of_heat rfl
    · exact refl d
  exact stopped.trans (servePasses _ 4)

end HeatMarkStays

/-! ### The phase rules at Station Control and HP -/

section Phases

variable (d : Device)

/-- A move to a phase with an identified coach leaves the sections as they are (R12). -/
theorem setPhase_sc {new : Phase} (h : new.identified = true) : (d.setPhase new).sc = d.sc := by
  have here : new ≠ .departing := by rintro rfl; cases h
  have kept : new.tornDown = false := by revert h; cases new <;> decide
  have handed : d.setPhase new = (d.cuPhase new).handPhase d.cu.phase new := by
    simp [Device.setPhase, Device.dropIdentity, here, kept]
  have sections : d.sc.onPhase new = d.sc := by simp [Sc.onPhase, kept]
  rw [handed]
  exact sections

/-- Without coupling the phase rules leave Station Control and HP as they are (R12, R95). -/
theorem settlePhases_sc_hp (n : Nat) (c : d.coupleNow = false) :
    (d.settlePhases n).sc = d.sc ∧ (d.settlePhases n).hp = d.hp := by
  induction n generalizing d with
  | zero => exact ⟨rfl, rfl⟩
  | succ n ih =>
    unfold Device.settlePhases
    split
    · exact ⟨rfl, rfl⟩
    · next new h =>
      obtain ⟨-, i, -⟩ := nextPhase_where d h c
      obtain ⟨-, -, -, -, hp, -⟩ := setPhase_units d.refresh i
      obtain ⟨sc', hp'⟩ := ih (d.refresh.setPhase new) (Stays.not_coupleNow _ i)
      exact ⟨sc'.trans (setPhase_sc d.refresh i), hp'.trans hp⟩

/-- What comes after the lamp passes in the units leaves Station Control as it is. -/
theorem settle_sc : d.settle.sc = (d.settlePhases 8).lampsDone.sc := by
  unfold Device.settle Device.watchPower
  rw [showAspect_eq, followMonitor_eq, releasePull_eq, beginReadIfDue_eq]
  rfl

/-- A following-up in which no coupling begins keeps the change mark of HEAT (R12, R13). -/
theorem HeatMarkStays.close (before : Device) (c : d.coupleNow = false) :
    HeatMarkStays d (Machine.close before d) := by
  have phases : HeatMarkStays d (d.settlePhases 8).forceClaim.capStage := by
    refine .of_heat ?_
    rw [forceClaim_eq]
    exact congrArg Sc.heat (settlePhases_sc_hp d 8 c).1
  have units : HeatMarkStays d d.settle :=
    (phases.trans (runLamps _)).trans (.of_heat (congrArg Sc.heat (settle_sc d)))
  have marks : HeatMarkStays d.settle (before.markChanges d.settle) := by
    intro k
    rw [markChanges_eq]
    show (if _ then d.settle.sc.heat.touch else d.settle.sc.heat) = _
    rw [k, touch_dirty, ite_self]
  have line (e : Device) : HeatMarkStays e e.seekLine := by
    unfold Device.seekLine
    split <;> exact .of_heat rfl
  exact (units.trans marks).trans (line _)

end Phases

/-! ### A bay that stays in heat computation, or out of it -/

/-- No phase rule takes the bay into PREPARING..CLEARED or out of them, whatever the blocks, and match state and
LOCKOUT-FAULT are what the state gives (R6, R27, R57, R125). -/
structure Device.Steady (d : Device) : Prop where
  coupling : d.cu.phase = .coupling → d.identity = none
  coupled : d.cu.phase = .coupled → d.evalMatch ≠ .matched
  prepared : d.cu.phase.prepared = true → d.cu.plan.isSome = true
  couples : d.coupleNow = false
  matchState : d.cu.matchState = d.evalMatch
  lockout : d.hcu.faultLockout = d.ftu.heatLockout

/-- In a settled bay in PREPARING..CLEARED a plan is stored (R125, R131). -/
theorem prepared_plan {d : Device} (e : d.evaluated) (s : d.phaseSettled) (p : d.cu.phase.prepared = true) :
    d.cu.plan.isSome = true := by
  have none : d.cu.blocks.noPlan = false := by
    unfold Device.phaseSettled at s
    cases q : d.cu.phase <;> rw [q] at s p
    case preparing => exact s.2
    case ready => exact noPlan_of_preparation s.1
    case clearing | cleared => exact noPlan_of_revoking s.1
    all_goals cases p
  obtain ⟨-, -, b⟩ := e
  have coach : d.cu.phase.withCoach = true := by revert p; cases d.cu.phase <;> decide
  rw [b] at none
  simpa [Device.evalBlocks, coach] using none

theorem Device.Steady.of_settled {d : Device} (e : d.evaluated) (s : d.phaseSettled) : d.Steady where
  coupling := fun p => by unfold Device.phaseSettled at s; rwa [p] at s
  coupled := fun p => by unfold Device.phaseSettled at s; rw [p] at s; rw [← e.1]; exact s
  prepared := prepared_plan e s
  couples := (nextPhase_none_of d e s).2
  matchState := e.1
  lockout := e.2.1

namespace Device.Steady

variable {d : Device} (h : d.Steady)

include h

/-- The phase rules leave the phase, or move within PREPARING..CLEARED. -/
theorem settlePhases_phase : (d.settlePhases 8).cu.phase = d.cu.phase
    ∨ (d.cu.phase.prepared = true ∧ (d.settlePhases 8).cu.phase.prepared = true) := by
  have stands (n : d.refresh.nextPhase = none) : (d.settlePhases 8).cu.phase = d.cu.phase := by
    rw [Device.settlePhases, n]
    rfl
  cases p : d.cu.phase.prepared with
  | true => exact .inr ⟨rfl, settlePhases_prepared d 8 p (h.prepared p)⟩
  | false =>
    left
    have same : d.refresh.cu.phase = d.cu.phase := rfl
    cases q : d.cu.phase with
    | vacant | departing => exact ((Stays.settlePhases d 8 h.couples).phase (by simp [q])).trans q
    | coupling =>
      refine (stands ?_).trans q
      have unknown : d.refresh.identity = none := h.coupling q
      simp [Device.nextPhase, same, q, unknown]
    | coupled =>
      rw [settlePhases_coupled d 8 q (h.coupled q)]
      exact q
    | preparing | ready | clearing | cleared => rw [q] at p; cases p

variable (before : Device)

theorem close_phase : (close before d).cu.phase.prepared = d.cu.phase.prepared
    ∧ ((close before d).cu.phase = .departing ↔ d.cu.phase = .departing) := by
  rw [Machine.close_phase]
  rcases h.settlePhases_phase with same | ⟨old, new⟩
  · rw [same]
    exact ⟨rfl, Iff.rfl⟩
  · refine ⟨new.trans old.symm, ⟨fun k => ?_, fun k => ?_⟩⟩
    · rw [k] at new; cases new
    · rw [k] at old; cases old

/-- What is evaluated comes to what it was (R6, R57). -/
theorem close_evaluated : (close before d).cu.matchState = d.cu.matchState
    ∧ (close before d).hcu.faultLockout = d.hcu.faultLockout := by
  have inputs := SameInputs.of_stays (FollowedCore.close before d) (Stays.close before d h.couples)
  obtain ⟨⟨matching, lockout, -⟩, -⟩ := close_settled before d
  exact ⟨matching.trans ((inputs.evalMatch (h.close_phase before).2).trans h.matchState.symm),
    lockout.trans (inputs.heatLockout.trans h.lockout.symm)⟩

theorem close_locked : (close before d).hcu.locked = d.hcu.locked := by
  unfold Hcu.locked
  rw [(h.close_evaluated before).2, (FollowedCore.close before d).hcu]

/-- The claim is forced exactly where it was (R93). -/
theorem close_claimForced : (close before d).claimForced = d.claimForced := by
  unfold Device.claimForced
  rw [h.close_locked, (h.close_phase before).1, (h.close_evaluated before).1, (FollowedCore.close before d).sc,
    (Stays.close before d h.couples).clc]

/-- A claim that is 0 where it is forced stays as it is, and with it all that the HP has worked out (R93). -/
theorem close_hp (z : d.claimForced = true → d.hp.q = 0) : (close before d).hp = d.hp := by
  have forced := (Machine.close_claimForced before d).symm.trans (h.close_claimForced before)
  rw [(close_tail d before).hp, lampsDone_eq, forced, (settlePhases_sc_hp d 8 h.couples).2]
  cases f : d.claimForced with
  | false => rfl
  | true =>
    show { d.hp with q := 0 } = d.hp
    rw [← z f]

/-- A grant that is 0 where the claim is forced stays as it is (R93, R104). -/
theorem close_grant (z : d.claimForced = true → d.hcu.grant = 0) : (close before d).hcu.grant = d.hcu.grant := by
  rw [(close_heater d before).grant, h.close_claimForced before]
  split
  · next f => exact (z f).symm
  · rfl

/-- With grant and window as they were, so is the target stage (R102). -/
theorem close_targetStage (g : (close before d).hcu.grant = d.hcu.grant)
    (w : (close before d).hcu.window = d.hcu.window) : (close before d).targetStage = d.targetStage := by
  have core := FollowedCore.close before d
  have identity := (Stays.close before d h.couples).identity
  have caps : SameCaps d (close before d) := by
    constructor
    · unfold Device.capZero
      rw [h.close_locked, (h.close_phase before).1, (h.close_evaluated before).1, identity, core.sc, core.hcu]
    · rw [core.hcu]
    · unfold Device.grantStage
      rw [identity, g]
    · unfold Device.windowStage
      rw [identity, core.conf]
  exact caps.target.1 w

/-- A stage and a pending raise within a target that is the target stage stay with it while grant and window do
(R104). -/
theorem close_stage (g : (close before d).hcu.grant = d.hcu.grant)
    (w : (close before d).hcu.window = d.hcu.window) (target : d.hcu.target = d.targetStage)
    (stage : d.hcu.stage ≤ d.hcu.target) (raise : ∀ r, d.hcu.raise = some r → r ≤ d.hcu.target) :
    (close before d).hcu.target = d.hcu.target ∧ (close before d).hcu.stage = d.hcu.stage
      ∧ (close before d).hcu.raise = d.hcu.raise := by
  have heater := close_heater d before
  have same : (close before d).hcu.target = d.hcu.target := by
    have released : ¬ (d.hcu.window ≠ .none ∧ (close before d).hcu.window = .none) := fun ⟨was, is⟩ => was (w ▸ is)
    rw [heater.target, h.close_targetStage before g w, if_neg released, target, Nat.min_self, ite_self]
  refine ⟨same, ?_, Option.ext fun r => ?_⟩
  · rw [heater.stage, same]
    omega
  · rw [heater.raise r, same]
    exact ⟨fun k => k.1, fun k => ⟨k, raise r k, raise r k⟩⟩

end Device.Steady

end Sys2Proof.Machine
end

section
/-! THEOREMS. The claim tick (`claimTickDoesItsWork`): what its work leaves in each unit, and that its following-up keeps
demand, grant and stage in a settled bay. -/

namespace Sys2Proof.Machine

/-! ### Grant and claim of a tick -/

section Claim

variable {d : Device}

/-- No grant is above the claim (R101). -/
theorem grantNow_le : d.grantNow ≤ d.hp.q := by
  unfold Device.grantNow
  split
  · split <;> exact Nat.min_le_left _ _
  · exact Nat.zero_le _

/-- A tick works out the claim 0 wherever a forced claim would be 0 (R84, R93). -/
theorem hpValues_forced (f : d.claimForced = true) : d.hpValues.q = 0 := by
  cases run : d.hpRuns with
  | false => rw [hpValues_idle run]; rfl
  | true =>
    obtain ⟨prepared, matched, heats⟩ := hpRuns_iff.1 run
    have cause : d.clc.tcState = .stale ∨ d.hcu.locked = true := by
      simpa [Device.claimForced, prepared, matched, heats] using f
    unfold Device.hpValues
    split
    · split
      · next tc usable =>
        rcases cause with stale | locked
        · rw [usableTc_none (.inr stale)] at usable
          cases usable
        · exact if_pos locked
      · rfl
    · rfl

/-- With a coach at the umbilical no coupling begins (R27). -/
theorem coupleNow_withCoach (w : d.cu.phase.withCoach = true) : d.coupleNow = false := by
  unfold Device.coupleNow
  revert w
  cases d.cu.phase <;> simp [Phase.withCoach]

/-- A following-up keeps the grant within the claim (R93, R101, R104). -/
theorem close_grant_le (before : Device) (g : d.hcu.grant ≤ d.hp.q) :
    (close before d).hcu.grant ≤ (close before d).hp.q := by
  cases c : d.coupleNow with
  | true =>
    obtain ⟨-, grant, -⟩ := (JustCoupling.close before c).stage
    rw [grant]
    exact Nat.zero_le _
  | false => exact (Stays.close before d c).claim g

/-- A retry hold that is clear stays clear in a following-up (R128). -/
theorem close_retryHold (before : Device) (r : d.cu.retryHold = false) : (close before d).cu.retryHold = false := by
  have bay := close_bay d before
  cases n : d.refresh.nextPhase with
  | none => rw [bay.stays n]; exact r
  | some new => exact (bay.moves (by rw [n]; rfl)).1

end Claim

/-- What a following-up writes nowhere, of what the statement of the tick names. -/
theorem FollowedCore.kept {a b : Device} (h : FollowedCore a b) :
    b.sc.alarms = a.sc.alarms ∧ b.sc.config = a.sc.config ∧ b.hcu.claimTimer = a.hcu.claimTimer
      ∧ b.hcu.announced = a.hcu.announced ∧ b.lu.peers = a.lu.peers ∧ b.lu.stats = a.lu.stats
      ∧ b.lu.flight = a.lu.flight ∧ b.lu.lists = a.lu.lists := by
  rw [h.sc, h.hcu, h.lu]
  exact ⟨rfl, rfl, rfl, rfl, rfl, rfl, rfl, rfl⟩

/-! ### What the work of a tick leaves in each unit -/

section Ticked

variable (d : Device) (t : Nat) (probe : Int)

/-- The HCU: grant, target, stage and raise of the tick, and the energy counted (R99). -/
theorem ticked_hcu : (d.ticked t probe).hcu =
    { d.hcu with
      claimTimer := some (t + 2000000), rejoinCap := if d.rejoinEnds = true then none else d.hcu.rejoinCap,
      grant := (d.tickReady t probe).grantNow, target := d.tickTarget t probe,
      stage := min d.hcu.stage (d.tickTarget t probe), raise := (d.tickChosen t probe).raise,
      energy := (d.ticked t probe).hcu.energy, sat := (d.ticked t probe).hcu.sat } := by
  have counted : (d.ticked t probe).hcu =
      { d.tickChosen t probe with
        energy := (d.ticked t probe).hcu.energy, sat := (d.ticked t probe).hcu.sat } := by
    unfold Device.ticked
    cases d.identity <;> rfl
  have chosen := choose_eq (d.tickGranted t probe) (d.tickTarget t probe)
  exact counted.trans (congrArg
    (fun hcu : Hcu => { hcu with energy := (d.ticked t probe).hcu.energy, sat := (d.ticked t probe).hcu.sat }) chosen)

theorem ticked_grant : (d.ticked t probe).hcu.grant = (d.tickReady t probe).grantNow := by rw [ticked_hcu]

theorem ticked_target : (d.ticked t probe).hcu.target = (d.tickChosen t probe).target := by
  rw [ticked_hcu, Device.tickChosen, choose_eq]

theorem ticked_stage : (d.ticked t probe).hcu.stage = (d.tickChosen t probe).stage := by
  rw [ticked_hcu, Device.tickChosen, choose_eq]
  rfl

theorem ticked_raise : (d.ticked t probe).hcu.raise = (d.tickChosen t probe).raise := by rw [ticked_hcu]

/-- The stage is lowered to the target, or stays (R105). -/
theorem ticked_stage_le :
    (d.ticked t probe).hcu.stage ≤ d.hcu.stage ∧ (d.ticked t probe).hcu.stage ≤ (d.ticked t probe).hcu.target := by
  rw [ticked_hcu]
  exact ⟨Nat.min_le_left _ _, Nat.min_le_right _ _⟩

/-- What the tick leaves alone in the HCU, and its next deadline (R98). -/
theorem ticked_keeps : (d.ticked t probe).hcu.claimTimer = some (t + 2000000)
    ∧ (d.ticked t probe).hcu.announced = d.hcu.announced ∧ (d.ticked t probe).hcu.window = d.hcu.window
    ∧ (d.ticked t probe).hcu.faultLockout = d.hcu.faultLockout := by
  rw [ticked_hcu]
  exact ⟨rfl, rfl, rfl, rfl⟩

/-- The energy of the stage held when the tick fell is counted (R116). -/
theorem ticked_energy {id : CoachIdentity} (i : d.identity = some id) :
    (d.ticked t probe).hcu.energy = min 4294967295 (d.hcu.energy + id.rating * 500 * d.hcu.stage / id.stages)
    ∧ (d.ticked t probe).hcu.sat = (d.hcu.sat
      || decide (4294967295 < d.hcu.energy + id.rating * 500 * d.hcu.stage / id.stages)) := by
  unfold Device.ticked
  rw [i]
  exact ⟨rfl, rfl⟩

/-- The probe values stand as the tick has read them (R86). -/
theorem ticked_probe :
    (d.ticked t probe).hp.toInUse =
      (if -90 ≤ probe ∧ probe ≤ 110 then max (-80) (min 100 probe) else d.hp.probeLast.getD (-60))
    ∧ (d.ticked t probe).hp.probeLast =
      if -90 ≤ probe ∧ probe ≤ 110 then some (max (-80) (min 100 probe)) else d.hp.probeLast := by
  obtain ⟨toInUse, probeLast, -⟩ := hpValues_keeps (d.tickRead t probe)
  exact ⟨toInUse, probeLast⟩

theorem ticked_alarms : (d.ticked t probe).sc.alarms =
    { d.sc.alarms with probeFault := d.sc.alarms.probeFault || decide (probe < -90 ∨ 110 < probe) } := rfl

theorem ticked_raise_le {r : Nat} (h : (d.ticked t probe).hcu.raise = some r) :
    r ≤ (d.ticked t probe).hcu.target ∧ r ≤ (d.ticked t probe).hcu.stage + 1 := by
  rw [ticked_raise] at h
  obtain ⟨target, step⟩ := choose_raise h
  rw [ticked_stage, ticked_target, Device.tickChosen, choose_eq]
  rw [choose_eq] at step
  exact ⟨target, step⟩

/-- Caps and grant are what the choice of the stage met (R102). -/
theorem ticked_targetStage : (d.ticked t probe).targetStage = (d.ticked t probe).hcu.target := by
  rw [ticked_target, Device.tickChosen, choose_eq]
  unfold Device.tickTarget Device.targetStage Device.underRejoin Device.underWindow Device.grantStage Device.capZero
    Hcu.windowFlag Hcu.locked
  rw [ticked_hcu]
  rfl

/-- The mode is one of a NOTICE where it was: a rejoin period that ends leads to RUN (R98, R161). -/
theorem ticked_speaks (m : d.sc.mode.speaks = true) : (d.ticked t probe).sc.mode.speaks = true := by
  show (if d.rejoinEnds = true then Mode.run else d.sc.mode).speaks = true
  split
  · rfl
  · exact m

/-- Outside a rejoin period, and at the end of one in ISOLATED, a mode of heat computation stays one (R161). -/
theorem ticked_heats (m : d.sc.rejoin = none ∨ d.sc.mode = .isolated) :
    (d.ticked t probe).sc.mode.heats = d.sc.mode.heats := by
  show (if d.rejoinEnds = true then Mode.run else d.sc.mode).heats = d.sc.mode.heats
  split
  · next ends =>
    rcases m with m | m
    · simp [Device.rejoinEnds, m] at ends
    · rw [m]; rfl
  · rfl

/-- The claim that a tick leaves is 0 where it is forced (R93). -/
theorem ticked_forced (f : (d.ticked t probe).claimForced = true) : (d.ticked t probe).hp.q = 0 := by
  have read : (d.ticked t probe).claimForced = (d.tickRead t probe).claimForced := by
    unfold Device.claimForced Hcu.locked
    rw [ticked_hcu]
    rfl
  exact hpValues_forced (read.symm.trans f)

variable {d}

/-- The work of a tick takes no bay into heat computation or out of it. -/
theorem Device.Steady.ticked (h : d.Steady) (m : (d.ticked t probe).sc.mode.heats = d.sc.mode.heats) :
    (d.ticked t probe).Steady where
  coupling := h.coupling
  coupled := h.coupled
  prepared := h.prepared
  couples := by
    have c := h.couples
    unfold Device.coupleNow at c ⊢
    rw [m]
    exact c
  matchState := h.matchState
  lockout := by
    obtain ⟨-, -, -, lockout⟩ := ticked_keeps d t probe
    exact lockout.trans h.lockout

end Ticked

/-! ### The obligation -/

/-- Settles O9: the command closes on the work of the tick (`exec_ticked`), and in a settled bay its following-up keeps
demand, grant and stage (`Device.Steady`). -/
theorem claimTickDoesItsWork : Obligations.ClaimTickDoesItsWork := by
  refine ⟨fun s t0 probe due => ?_,
    fun s t0 probe ends first read ready granted chosen due isEnd isRead isFirst isReady isGranted isChosen => ?_⟩
  · have core := FollowedCore.close s.dev (s.dev.ticked t0 probe)
    obtain ⟨alarms, config, claimTimer, announced, peers, stats, flight, lists⟩ := core.kept
    obtain ⟨deadline, announcedIs, -, -⟩ := ticked_keeps s.dev t0 probe
    obtain ⟨toInUse, probeLast⟩ := ticked_probe s.dev t0 probe
    refine ⟨_, exec_ticked t0 probe due, rfl, core.clock, claimTimer.trans deadline, fun good => ?_, fun bad => ?_,
      close_grant_le _ ((ticked_grant s.dev t0 probe).trans_le grantNow_le),
      core.lower.1.trans (ticked_stage_le s.dev t0 probe).1,
      core.step fun r raise => (ticked_raise_le s.dev t0 probe raise).2, announced.trans announcedIs,
      fun id i coach => ?_, close_retryHold _ rfl, fun speaks => core.unbegun ?_, core.pins, config, core.plan.1,
      core.plan.2, peers, stats, flight, lists⟩
    · have valid : decide (probe < -90 ∨ 110 < probe) = false := decide_eq_false (by omega)
      refine ⟨core.probe.1.trans (toInUse.trans (if_pos good)), core.probe.2.trans (probeLast.trans (if_pos good)),
        alarms.trans ?_⟩
      rw [ticked_alarms, valid, Bool.or_false]
    · have faulty : decide (probe < -90 ∨ 110 < probe) = true := decide_eq_true bad
      have outside : ¬ (-90 ≤ probe ∧ probe ≤ 110) := by omega
      refine ⟨core.probe.1.trans (toInUse.trans (if_neg outside)),
        core.probe.2.trans (probeLast.trans (if_neg outside)), alarms.trans ?_⟩
      rw [ticked_alarms, faulty, Bool.or_true]
    · obtain ⟨energy, sat⟩ := ticked_energy s.dev t0 probe i
      have stays := Stays.close s.dev (s.dev.ticked t0 probe) (coupleNow_withCoach coach)
      exact ⟨stays.energy.1.trans energy, stays.energy.2.trans sat⟩
    · exact Bool.or_eq_true_iff.2 (.inr (ticked_speaks s.dev t0 probe speaks))
  · obtain rfl : ends = s.dev.rejoinEnds := Bool.eq_iff_iff.2 (isEnd.trans (rejoinEnds_iff s.dev).symm)
    obtain rfl : read = s.dev.tickRead t0 probe := isRead
    obtain rfl : first = s.dev.tickFirst t0 probe := isFirst
    obtain rfl : ready = s.dev.tickReady t0 probe := isReady
    obtain rfl : granted = s.dev.tickGranted t0 probe := isGranted
    obtain rfl : chosen = s.dev.tickChosen t0 probe := isChosen
    refine ⟨_, exec_ticked t0 probe due, rfl, followed_close s.dev (s.dev.ticked t0 probe), fun e p mode => ?_⟩
    have steady := (Device.Steady.of_settled e p).ticked t0 probe (ticked_heats s.dev t0 probe mode)
    have forced := ticked_forced s.dev t0 probe
    have grantIs := ticked_grant s.dev t0 probe
    have grant := steady.close_grant s.dev fun f =>
      Nat.eq_zero_of_le_zero ((grantIs.trans_le grantNow_le).trans_eq (forced f))
    refine ⟨steady.close_hp s.dev forced, grant.trans grantIs, fun isFirst on => ?_, fun window => ?_⟩
    · exact HeatMarkStays.close _ s.dev steady.couples ((if_pos isFirst).trans (touch_of_on on))
    · obtain ⟨-, -, windowIs, -⟩ := ticked_keeps s.dev t0 probe
      obtain ⟨target, stage, raise⟩ := steady.close_stage s.dev grant (window.trans windowIs.symm)
        (ticked_targetStage s.dev t0 probe).symm (ticked_stage_le s.dev t0 probe).2
        fun r k => (ticked_raise_le s.dev t0 probe k).1
      exact ⟨target.trans (ticked_target s.dev t0 probe), stage.trans (ticked_stage s.dev t0 probe),
        raise.trans (ticked_raise s.dev t0 probe)⟩

end Sys2Proof.Machine
end

section
/-! SUPPORT. What every following-up leaves at the heater, its monitor and the bay signal, whatever it met, and what a
command leaves that closes no event (`HeaterStays`). -/

namespace Sys2Proof.Machine

/-! ### What every following-up leaves -/

/-- A monitor in the state that Table 41 calls for. -/
theorem monitorOk_of_wanted {d : Device} (h : d.hcu.monitor = d.monitorWanted) : d.monitorOk := by
  unfold Device.monitorOk
  rw [h]
  unfold Device.monitorWanted Device.monitorWorks Device.overdrawn Device.draws
  by_cases works : d.conf.currentFitted = true ∧ d.sc.mode.hears = true
  · rcases Nat.eq_zero_or_pos d.hcu.stage with stage | stage
    · by_cases stuck : d.hcu.pull = .none ∧ d.hcu.armed = true ∧ d.monitorFull < 20 * d.pins.power <;>
        simp [works, stage, stuck]
    · by_cases above : 11 * d.stagePower < 10 * d.pins.power <;> simp [works, stage, above, stage.ne']
  · have off : (d.conf.currentFitted && d.sc.mode.hears) = false := by simpa using works
    simp only [off, ← and_assoc, works]
    simp

/-- A bay signal that shows the aspect of Table 47. -/
theorem aspectOk_of_shown {d : Device} (h : d.cu.aspect = d.aspectNow) : d.aspectOk := by
  unfold Device.aspectOk
  rw [h]
  unfold Device.aspectNow
  cases d.sc.mode <;> simp
  all_goals cases d.cu.phase <;> simp

/-- Every following-up puts the monitor in its state (R112, R113). -/
theorem close_monitorOk (before d : Device) : (close before d).monitorOk :=
  monitorOk_of_wanted (close_heater d before).monitor.1

/-- Every following-up shows the aspect (R138). -/
theorem close_aspectOk (before d : Device) : (close before d).aspectOk :=
  aspectOk_of_shown (close_bay d before).aspect.1

/-- Every following-up lowers stage and pending raise to the target that grant and caps allow (R102, R104). -/
theorem close_stageCapped (before d : Device) : (close before d).stageCapped := by
  obtain ⟨-, target, stage, raise, -⟩ := close_heater d before
  have le : (close before d).hcu.target ≤ (close before d).targetStage := by
    rw [target]
    split
    · exact Nat.le_refl _
    · refine (Nat.min_le_right _ _).trans ?_
      split
      · exact Nat.min_le_left _ _
      · exact Nat.le_refl _
  refine ⟨?_, fun r h => ((raise r).mp h).2.2.trans le⟩
  rw [stage]
  exact (Nat.min_le_right _ _).trans le

/-! ### A command that closes no event -/

/-- In `e` nothing has changed of what heater, monitor and bay signal look at. -/
structure HeaterStays (d e : Device) : Prop where
  power : e.pins.power = d.pins.power
  sc : e.sc = { d.sc with phase := e.sc.phase, heat := e.sc.heat, lamp := e.sc.lamp, fault := e.sc.fault }
  identity : e.identity = d.identity
  plug : e.clc.plug = d.clc.plug
  hcu : e.hcu = { d.hcu with shedFilter := e.hcu.shedFilter }
  cu : e.cu = { d.cu with presence := e.cu.presence, lit := e.cu.lit, flash := e.cu.flash }

namespace HeaterStays

theorem refl (d : Device) : HeaterStays d d := ⟨rfl, rfl, rfl, rfl, rfl, rfl⟩

theorem trans {a b c : Device} (h : HeaterStays a b) (k : HeaterStays b c) : HeaterStays a c where
  power := k.power.trans h.power
  sc := by rw [k.sc, h.sc]
  identity := k.identity.trans h.identity
  plug := k.plug.trans h.plug
  hcu := by rw [k.hcu, h.hcu]
  cu := by rw [k.cu, h.cu]

/-- A section mark, an early NOTICE request and a backoff. -/
theorem of_marks {d e : Device} (h : MarksOnly d e) : HeaterStays d e := by
  rw [h]
  exact { refl d with sc := rfl }

variable (d : Device)

theorem reach (t : Nat) : HeaterStays d (d.reach t) := { refl d with }

theorem seekLine : HeaterStays d d.seekLine := of_marks (MarksOnly.seekLine d)

theorem onLu (f : Lu → Lu) : HeaterStays d (d.onLu f) := { refl d with }

theorem onClc {f : Clc → Clc} (p : (f d.clc).plug = d.clc.plug) : HeaterStays d (d.onClc f) := { refl d with plug := p }

theorem requestNotice : HeaterStays d d.requestNotice := by
  unfold Device.requestNotice
  split
  · exact onLu d _
  · exact refl d

theorem chooseFrame : HeaterStays d d.chooseFrame := by
  unfold Device.chooseFrame
  repeat' split
  · exact refl d
  · exact { refl d with sc := rfl }
  · exact refl d
  · exact onLu d _

theorem beginAttempt : HeaterStays d d.beginAttempt := by
  unfold Device.beginAttempt
  split <;> exact onLu d _

theorem startBit : HeaterStays d d.startBit := by
  unfold Device.startBit
  split
  · exact (onLu d _).trans (onLu _ _)
  · exact onLu d _

theorem discardFrame (atCrc : Bool) : HeaterStays d (d.discardFrame atCrc) := { refl d with }

theorem followPresence : HeaterStays d d.followPresence := by
  unfold Device.followPresence
  split
  · exact { refl d with cu := rfl }
  · exact refl d

theorem leadHeard (x : Exchange) : HeaterStays d (d.leadHeard x) := by
  unfold Device.leadHeard
  split
  · exact onClc d rfl
  · exact onClc d rfl
  all_goals exact refl d

section Reads

variable {d} {e : Device} (h : HeaterStays d e)
include h

theorem targetStage : e.targetStage = d.targetStage := by
  unfold Device.targetStage Device.capZero Device.underRejoin Device.underWindow Device.windowStage Device.grantStage
    Hcu.windowFlag Hcu.locked Device.conf
  rw [h.identity, h.hcu, h.cu, h.sc]

theorem stageCapped (k : d.stageCapped) : e.stageCapped := by
  unfold Device.stageCapped
  rw [h.targetStage, h.hcu]
  exact k

theorem monitorOk (k : d.monitorOk) : e.monitorOk := by
  unfold Device.monitorOk Device.stagePower Device.monitorFull Device.conf
  rw [h.identity, h.hcu, h.sc, h.power]
  exact k

theorem aspectOk (k : d.aspectOk) : e.aspectOk := by
  unfold Device.aspectOk
  rw [h.cu, h.sc, h.plug]
  exact k

end Reads

end HeaterStays

end Sys2Proof.Machine
end

section
/-! SUPPORT. The energy counter in the operations of the units (`EnergyStays`, `EnergyGrows`), and what a command comes
to at the heater (`exec_heaterEnds`). -/

namespace Sys2Proof.Machine

/-! ### The energy counter (R116) -/

/-- The energy counter stands as it stood, in the same phase with the same coach. -/
structure EnergyStays (a b : Device) : Prop where
  energy : b.hcu.energy = a.hcu.energy
  sat : b.hcu.sat = a.hcu.sat
  phase : b.cu.phase = a.cu.phase
  identity : b.identity = a.identity

/-- The bay stands in COUPLING with the counter at 0 and no coach identified yet. -/
structure Device.counterFresh (d : Device) : Prop where
  phase : d.cu.phase = .coupling
  identity : d.identity = none
  energy : d.hcu.energy = 0
  sat : d.hcu.sat = false

/-- The energy counter grows within its range, SAT staying set, or coupling has begun. -/
def EnergyGrows (a b : Device) : Prop :=
  a.hcu.energy ≤ Config.energyMax →
    (a.hcu.energy ≤ b.hcu.energy ∧ b.hcu.energy ≤ Config.energyMax ∧ (a.hcu.sat = true → b.hcu.sat = true))
      ∨ b.counterFresh

/-- The same, and a counter that coupling has set to 0 stays so. -/
structure EnergyGoesOn (a b : Device) : Prop where
  grows : EnergyGrows a b
  fresh : a.counterFresh → b.counterFresh

theorem EnergyGrows.of_same {a b : Device} (e : b.hcu.energy = a.hcu.energy) (s : b.hcu.sat = a.hcu.sat) :
    EnergyGrows a b := by
  intro l
  rw [e, s]
  exact .inl ⟨Nat.le_refl _, l, id⟩

theorem EnergyGrows.andThen {a b c : Device} (h : EnergyGrows a b) (k : EnergyGoesOn b c) : EnergyGrows a c := by
  intro l
  rcases h l with ⟨e, m, s⟩ | f
  · rcases k.grows m with ⟨e', m', s'⟩ | f
    · exact .inl ⟨e.trans e', m', s' ∘ s⟩
    · exact .inr f
  · exact .inr (k.fresh f)

theorem EnergyStays.goesOn {a b : Device} (h : EnergyStays a b) : EnergyGoesOn a b where
  grows := .of_same h.energy h.sat
  fresh f := ⟨h.phase.trans f.phase, h.identity.trans f.identity, h.energy.trans f.energy, h.sat.trans f.sat⟩

theorem EnergyGoesOn.trans {a b c : Device} (h : EnergyGoesOn a b) (k : EnergyGoesOn b c) : EnergyGoesOn a c :=
  ⟨h.grows.andThen k, k.fresh ∘ h.fresh⟩

/-- A bay in COUPLING without an identity stays there (R125). -/
theorem close_coupling {d : Device} (before : Device) (p : d.cu.phase = .coupling) (i : d.identity = none) :
    (close before d).cu.phase = .coupling := by
  have n : d.refresh.nextPhase = none := by
    have p' : d.refresh.cu.phase = .coupling := p
    have i' : d.refresh.identity = none := i
    simp [Device.nextPhase, p', i']
  rw [(close_bay d before).stays n]
  exact p

/-- A following-up leaves the counter alone, but that coupling sets it to 0 (R116). -/
theorem EnergyGoesOn.close (before d : Device) : EnergyGoesOn d (close before d) := by
  cases c : d.coupleNow with
  | true =>
    have k := JustCoupling.close before c
    obtain ⟨-, -, energy, sat, -⟩ := k.stage
    exact ⟨fun _ => .inr ⟨k.phase, k.identity, energy, sat⟩, fun _ => ⟨k.phase, k.identity, energy, sat⟩⟩
  | false =>
    have k := Stays.close before d c
    obtain ⟨energy, sat⟩ := k.energy
    exact ⟨.of_same energy sat, fun f =>
      ⟨close_coupling before f.phase f.identity, k.identity.trans f.identity, energy.trans f.energy, sat.trans f.sat⟩⟩

namespace EnergyStays

theorem refl (d : Device) : EnergyStays d d := ⟨rfl, rfl, rfl, rfl⟩

theorem trans {a b c : Device} (h : EnergyStays a b) (k : EnergyStays b c) : EnergyStays a c :=
  ⟨k.energy.trans h.energy, k.sat.trans h.sat, k.phase.trans h.phase, k.identity.trans h.identity⟩

theorem after {a b c : Device} (k : EnergyStays b c) (h : EnergyStays a b) : EnergyStays a c := h.trans k

variable (d : Device)

theorem reach (t : Nat) : EnergyStays d (d.reach t) := ⟨rfl, rfl, rfl, rfl⟩

theorem requestRead : EnergyStays d d.requestRead := by
  unfold Device.requestRead
  split <;> exact ⟨rfl, rfl, rfl, rfl⟩

theorem offerRead (request : Request) : EnergyStays d (d.offerRead request) := by
  unfold Device.offerRead
  split <;> exact ⟨rfl, rfl, rfl, rfl⟩

theorem exchangeFailed (request : Request) : EnergyStays d (d.exchangeFailed request) := by
  have l : EnergyStays d d.latchLinkLost := by
    unfold Device.latchLinkLost
    split <;> exact ⟨rfl, rfl, rfl, rfl⟩
  have b : ∀ e : Device, EnergyStays e e.takeBackRead := by
    intro e
    unfold Device.takeBackRead
    split <;> exact ⟨rfl, rfl, rfl, rfl⟩
  have f : ∀ e : Device, EnergyStays e (e.handFailure request) := by
    intro e
    cases request <;> exact ⟨rfl, rfl, rfl, rfl⟩
  exact l.trans (((b _).trans (f _)).after ⟨rfl, rfl, rfl, rfl⟩)

theorem attemptFailed (x : Exchange) (quiet : Bool) : EnergyStays d (d.attemptFailed x quiet) := by
  unfold Device.attemptFailed
  split
  · exact exchangeFailed d _
  · split <;> exact ⟨rfl, rfl, rfl, rfl⟩

theorem frameEnds (quiet : Bool) : EnergyStays d (d.frameEnds quiet) := by
  unfold Device.frameEnds
  split
  · exact refl d
  · split
    · exact attemptFailed d _ _
    · unfold Device.lateFrameEnds
      split <;> exact ⟨rfl, rfl, rfl, rfl⟩
    all_goals exact refl d

theorem compareCount (count : Nat) : EnergyStays d (d.compareCount count) := by
  unfold Device.compareCount
  split
  · exact refl d
  · split
    · exact refl d
    · exact (requestRead _).after ⟨rfl, rfl, rfl, rfl⟩

theorem takeStatus (payload : List Byte) : EnergyStays d (d.takeStatus payload) :=
  (compareCount _ _).after ⟨rfl, rfl, rfl, rfl⟩

theorem readOpened (available : Nat) : EnergyStays d (d.readOpened available) := by
  unfold Device.readOpened
  split
  · exact refl d
  · dsimp only
    split
    · exact (offerRead _ _).after ⟨rfl, rfl, rfl, rfl⟩
    · exact ⟨rfl, rfl, rfl, rfl⟩

theorem offerAgain : EnergyStays d d.offerAgain := by
  unfold Device.offerAgain
  split
  · exact refl d
  · exact offerRead _ _

theorem countBusy {next : Device → Device} (h : ∀ e, EnergyStays e (next e)) : EnergyStays d (d.countBusy next) := by
  unfold Device.countBusy
  dsimp only
  split
  · exact ⟨rfl, rfl, rfl, rfl⟩
  · exact (h _).after ⟨rfl, rfl, rfl, rfl⟩

theorem readBusy : EnergyStays d d.readBusy := by
  unfold Device.readBusy
  split
  · exact countBusy d fun e => ⟨rfl, rfl, rfl, rfl⟩
  · exact refl d

theorem afterFrame (endFlag : Bool) : EnergyStays d (d.afterFrame endFlag) := by
  unfold Device.afterFrame
  repeat' split
  · exact refl d
  · exact ⟨rfl, rfl, rfl, rfl⟩
  · exact offerRead _ _
  · exact (offerRead _ _).after ⟨rfl, rfl, rfl, rfl⟩
  · exact ⟨rfl, rfl, rfl, rfl⟩

/-- What the LTU's operations write is none of it. -/
theorem of_lamps {d e : Device} (h : LampSide d e) : EnergyStays d e := by
  rw [h]
  exact ⟨rfl, rfl, rfl, rfl⟩

theorem endMeasurement (num millivolts milliamps supply : Nat) :
    EnergyStays d (d.endMeasurement num millivolts milliamps supply) := by
  unfold Device.endMeasurement
  split
  · exact of_lamps (.dropPass d)
  · rw [enterJudgement_eq, nextMeasurement_ltu]
    exact ⟨rfl, rfl, rfl, rfl⟩

theorem endPull : EnergyStays d d.endPull := by
  unfold Device.endPull
  split <;> exact ⟨rfl, rfl, rfl, rfl⟩

theorem announce (claim : Nat) : EnergyStays d (d.announce claim) := by
  unfold Device.announce Device.applyRaise
  repeat' split
  all_goals exact ⟨rfl, rfl, rfl, rfl⟩

theorem noticeShown (snap : Snapshot) : EnergyStays d (d.noticeShown snap) := by
  unfold Device.noticeShown
  repeat' split
  all_goals exact ⟨rfl, rfl, rfl, rfl⟩

theorem noticeCompleted (snap : Snapshot) :
    EnergyStays d (((d.completeFlight.completeSections snap).announce snap.q).noticeShown snap) := by
  have done : EnergyStays d (d.completeFlight.completeSections snap) := ⟨rfl, rfl, rfl, rfl⟩
  exact done.trans ((announce _ _).trans (noticeShown _ _))

theorem offerReply (n : Nat) : EnergyStays d (d.offerReply n) := by
  induction n generalizing d with
  | zero => exact refl d
  | succ n ih =>
    unfold Device.offerReply
    repeat' split
    · exact refl d
    · exact refl d
    · exact refl d
    · exact ⟨rfl, rfl, rfl, rfl⟩
    · exact (ih _).after ⟨rfl, rfl, rfl, rfl⟩

theorem listLeaves : EnergyStays d d.listLeaves := (offerReply _ 3).after ⟨rfl, rfl, rfl, rfl⟩

theorem startReply (subject : Subject) (requester start : Nat) :
    EnergyStays d (d.startReply subject requester start) := by
  unfold Device.startReply
  split
  · exact (offerReply _ 3).after ⟨rfl, rfl, rfl, rfl⟩
  · exact ⟨rfl, rfl, rfl, rfl⟩

theorem lineActivity : EnergyStays d d.lineActivity := by
  unfold Device.lineActivity
  dsimp only
  split <;> exact ⟨rfl, rfl, rfl, rfl⟩

theorem touchPhase : EnergyStays d d.touchPhase := by
  rw [touchPhase_eq]
  exact ⟨rfl, rfl, rfl, rfl⟩

theorem storePlan (plan : Plan) : EnergyStays d (d.storePlan plan) := by
  rw [storePlan_eq]
  split
  · exact ⟨rfl, rfl, rfl, rfl⟩
  · exact (touchPhase _).after ⟨rfl, rfl, rfl, rfl⟩

theorem cancelPlan : EnergyStays d d.cancelPlan := by
  rw [cancelPlan_eq]
  split
  · exact refl d
  · exact (touchPhase _).after ⟨rfl, rfl, rfl, rfl⟩

theorem takeDispatch {sender dest : Nat} {broadcast : Bool} {accept : Device → Device}
    (h : ∀ e, EnergyStays e (accept e)) : EnergyStays d (d.takeDispatch sender dest broadcast accept) := by
  unfold Device.takeDispatch
  repeat' split
  · exact refl d
  · exact ⟨rfl, rfl, rfl, rfl⟩
  · exact ⟨rfl, rfl, rfl, rfl⟩
  · exact h d

theorem configurationRead (answer : Option (List Byte)) : EnergyStays d (d.configurationRead answer) := by
  cases answer with
  | none => exact ⟨rfl, rfl, rfl, rfl⟩
  | some image =>
    unfold Device.configurationRead
    dsimp only
    split <;> exact ⟨rfl, rfl, rfl, rfl⟩

theorem toListen : EnergyStays d d.toListen := by
  unfold Device.toListen
  dsimp only
  split <;> exact ⟨rfl, rfl, rfl, rfl⟩

end EnergyStays

namespace EnergyGoesOn

variable (d : Device)

theorem refl : EnergyGoesOn d d := (EnergyStays.refl d).goesOn

theorem andStays {a b c : Device} (h : EnergyGoesOn a b) (k : EnergyStays b c) : EnergyGoesOn a c := h.trans k.goesOn

theorem after {a b c : Device} (k : EnergyGoesOn b c) (h : EnergyStays a b) : EnergyGoesOn a c := h.goesOn.trans k

/-- A contest is lost in CLEARING (R128, R129). -/
theorem loseContest (p : d.cu.phase = .clearing) : EnergyGoesOn d d.loseContest := by
  obtain ⟨-, -, -, hcu, -⟩ := setPhase_units (new := .ready) d rfl
  refine ⟨.of_same ?_ ?_, fun f => ?_⟩
  · exact congrArg Hcu.energy hcu
  · exact congrArg Hcu.sat hcu
  · cases p.symm.trans f.phase

theorem noticeDropped (snap : Snapshot) : EnergyGoesOn d (d.noticeDropped snap) := by
  unfold Device.noticeDropped
  split
  · next h => exact loseContest d h.2.1
  · exact refl d

theorem failAttempt (flight : Flight) : EnergyGoesOn d (d.failAttempt flight) := by
  unfold Device.failAttempt
  split
  · exact EnergyStays.goesOn ⟨rfl, rfl, rfl, rfl⟩
  · have s : EnergyStays d d.endFlight.countDropped := ⟨rfl, rfl, rfl, rfl⟩
    refine EnergyGoesOn.after ?_ s
    generalize d.endFlight.countDropped = e
    unfold Device.handDrop
    split
    · exact noticeDropped e _
    · exact (EnergyStays.listLeaves e).goesOn

theorem collided (flight : Flight) : EnergyGoesOn d (d.stopDriving.countCollision.failAttempt flight) := by
  have counted : EnergyStays d d.stopDriving.countCollision := ⟨rfl, rfl, rfl, rfl⟩
  exact (failAttempt _ flight).after counted

theorem peerCleared : EnergyGoesOn d d.peerCleared := by
  unfold Device.peerCleared
  dsimp only
  have s : EnergyStays d (d.onCu fun cu => { cu with spacing := d.spacingTimer }) := ⟨rfl, rfl, rfl, rfl⟩
  split
  · next p => exact (loseContest _ p).after s
  · exact s.goesOn

/-- A peer's NOTICE beats the own key in CLEARING alone (R129). -/
theorem beatenBy_clearing {e : PeerEntry} (h : d.beatenBy e = true) : d.cu.phase = .clearing := by
  unfold Device.beatenBy at h
  split at h
  · simp only [Bool.and_eq_true, beq_iff_eq] at h
    exact h.1.1.1
  · cases h

theorem contest (entry : PeerEntry) : EnergyGoesOn d (d.contest entry) := by
  have b : ∀ e : Device, EnergyGoesOn e (if e.beatenBy entry then e.loseContest else e) := by
    intro e
    split
    · next h => exact loseContest e (beatenBy_clearing e h)
    · exact refl e
  unfold Device.contest
  refine EnergyGoesOn.trans ?_ (b _)
  split
  · exact peerCleared d
  · exact refl d

theorem numberConflict : EnergyGoesOn d d.numberConflict := by
  unfold Device.numberConflict
  split
  · have l : EnergyStays d d.lineEventNow := ⟨rfl, rfl, rfl, rfl⟩
    refine EnergyGoesOn.after ?_ l
    generalize d.lineEventNow = e
    have s : EnergyGoesOn e e.silence := by
      unfold Device.silence
      dsimp only
      split
      · exact (noticeDropped _ _).after ⟨rfl, rfl, rfl, rfl⟩
      · exact EnergyStays.goesOn ⟨rfl, rfl, rfl, rfl⟩
    exact s.andStays ⟨rfl, rfl, rfl, rfl⟩
  · exact EnergyStays.goesOn ⟨rfl, rfl, rfl, rfl⟩

theorem takeNotice (station : Nat) (payload : List Byte) : EnergyGoesOn d (d.takeNotice station payload) := by
  unfold Device.takeNotice
  split
  · exact ((EnergyGoesOn.close d _).trans (contest _ _)).after ⟨rfl, rfl, rfl, rfl⟩
  · exact EnergyStays.goesOn ⟨rfl, rfl, rfl, rfl⟩

theorem mergeRecords (records : List FaultRecord) : EnergyGoesOn d (records.foldl Device.mergeRecord d) := by
  induction records generalizing d with
  | nil => exact refl d
  | cons r rest ih =>
    have m : EnergyGoesOn d (d.mergeRecord r) := (EnergyGoesOn.close d _).after ⟨rfl, rfl, rfl, rfl⟩
    exact m.trans (ih _)

theorem readRecords (payload : List Byte) : EnergyGoesOn d (d.readRecords payload) := by
  unfold Device.readRecords
  split
  · exact refl d
  · split
    · unfold Device.acceptFrame
      dsimp only
      have busy : EnergyStays d (d.onFtu fun ftu => { ftu with busyCount := 0 }) := ⟨rfl, rfl, rfl, rfl⟩
      exact ((mergeRecords _ _).after busy).andStays ((EnergyStays.afterFrame _ _).after ⟨rfl, rfl, rfl, rfl⟩)
    · exact (EnergyStays.countBusy d EnergyStays.offerAgain).goesOn

end EnergyGoesOn

namespace EnergyGrows

variable (d : Device)

theorem after {a b c : Device} (k : EnergyGrows b c) (h : EnergyStays a b) : EnergyGrows a c := by
  intro l
  rw [← h.energy] at l ⊢
  rw [← h.sat]
  exact k l

/-- A phase other than COUPLING leaves the counter alone (R116). -/
theorem setPhase {new : Phase} (n : new ≠ .coupling) : EnergyGrows d (d.setPhase new) := by
  refine .of_same ?_ ?_
  all_goals
    unfold Device.setPhase Device.dropIdentity
    cases new with
    | coupling => exact absurd rfl n
    | _ => rfl

theorem unplugPhase : EnergyGrows d d.unplugPhase := by
  unfold Device.unplugPhase
  split
  · exact setPhase d (by decide)
  · exact setPhase d (by decide)
  · exact (setPhase _ (by decide)).after ⟨rfl, rfl, rfl, rfl⟩
  · exact (setPhase _ (by decide)).after ⟨rfl, rfl, rfl, rfl⟩
  · exact (setPhase _ (by decide)).after ⟨rfl, rfl, rfl, rfl⟩
  · exact setPhase d (by decide)
  · exact of_same rfl rfl
  · exact of_same rfl rfl

theorem unplug : EnergyGrows d d.unplugLink.unplugPhase := by
  have s : EnergyStays d d.unplugLink := by
    rw [(unplugLink_eq d).1]
    exact ⟨rfl, rfl, rfl, rfl⟩
  exact (unplugPhase _).after s

/-- What is counted at a tick is added, up to the counter's range (R116). -/
theorem ticked (t : Nat) (probe : Int) : EnergyGrows d (d.ticked t probe) := by
  cases i : d.identity with
  | none =>
    refine .of_same ?_ ?_
    all_goals
      unfold Device.ticked Device.tickChosen
      rw [i, choose_eq]
      rfl
  | some id =>
    obtain ⟨energy, sat⟩ := ticked_energy d t probe i
    intro l
    refine .inl ⟨?_, ?_, fun s => ?_⟩
    · rw [energy]
      exact Nat.le_min.2 ⟨l, Nat.le_add_right _ _⟩
    · rw [energy]
      exact Nat.min_le_left _ _
    · rw [sat, s, Bool.true_or]

theorem takeReply (kind : ReplyKind) (ok : Bool) {result : Request → Device → Device}
    (h : ∀ r e, EnergyGrows e (result r e)) : EnergyGrows d (d.takeReply kind ok result) := by
  unfold Device.takeReply
  split
  · exact of_same rfl rfl
  · split
    · exact (h _ _).after ⟨rfl, rfl, rfl, rfl⟩
    · exact (EnergyStays.frameEnds d _).goesOn.grows

end EnergyGrows

/-! ### What a command comes to -/

/-- The device `e` that a command `c` leaves of `d`: every block reset; nothing changed that the heater looks at; or what
a following-up leaves, what the heater does not look at apart, the energy counter having grown in the command's own
effect or been set to 0 by coupling. -/
inductive HeaterEnds (c : Instr) (d : Device) : Device → Prop
  | reset (h : c = .powerOn ∨ c = .resetAssert ∨ c = .resetRelease) (clock : Nat) (pins : Pins) (start : StartStep)
      (plug shed : Timer) : HeaterEnds c d (Device.resetBlocks clock pins start plug shed)
  | kept {e : Device} (h : HeaterStays d e) : HeaterEnds c d e
  | closed {before after e : Device} (h : EnergyGrows d after) (k : HeaterStays (close before after) e) :
      HeaterEnds c d e

namespace HeaterEnds

variable {c : Instr} {d : Device}

/-- The device of a meaning that answers `t`. -/
theorem of_did {s t : State} {f : Device → Device} (h : s.did f = .next t) (k : HeaterEnds c s.dev (f s.dev)) :
    HeaterEnds c s.dev t.dev := by
  cases h
  exact k

theorem same : HeaterEnds c d d := kept (HeaterStays.refl d)

theorem ite {p : Prop} [Decidable p] {a b : Device} (h : p → HeaterEnds c d a) (k : ¬ p → HeaterEnds c d b) :
    HeaterEnds c d (if p then a else b) := by
  split
  · exact h ‹_›
  · exact k ‹_›

theorem expiry (timer : Timer) {f : Device → Device} (h : ∀ t, HeaterEnds c d (f (d.reach t))) :
    HeaterEnds c d (d.onExpiry timer f) := by
  cases timer with
  | none => exact same
  | some t => exact h t

/-- A following-up of an effect in which the counter grows. -/
theorem grows {before after : Device} (h : EnergyGrows d after) : HeaterEnds c d (close before after) :=
  closed h (HeaterStays.refl _)

/-- A following-up of an effect that does not write the counter. -/
theorem close_same {before after : Device} (e : after.hcu.energy = d.hcu.energy) (s : after.hcu.sat = d.hcu.sat) :
    HeaterEnds c d (Machine.close before after) :=
  grows (.of_same e s)

theorem close {before after : Device} (h : EnergyStays d after) : HeaterEnds c d (Machine.close before after) :=
  grows h.goesOn.grows

theorem listenEntry {before after : Device} (h : EnergyStays d after) : HeaterEnds c d (before.listenEntry after) := by
  have u : ∀ e : Device,
      HeaterStays e ((e.onSc fun sc => { sc with phase := ⟨.initial, false⟩ }).requestNotice.seekLine) := by
    intro e
    have p : HeaterStays e (e.onSc fun sc => { sc with phase := ⟨.initial, false⟩ }) :=
      { HeaterStays.refl e with sc := rfl }
    exact p.trans ((HeaterStays.requestNotice _).trans (HeaterStays.seekLine _))
  exact closed (h.trans (EnergyStays.toListen after)).goesOn.grows (u _)

/-- A frame of another node: discarded, a number conflict, or used. -/
theorem takeFrame (sender dest : Byte) (ok : Bool) {use : Device → Device} (h : ∀ e, EnergyGoesOn e (use e)) :
    HeaterEnds c d (d.takeFrame sender dest ok use) := by
  have line : EnergyStays d (d.leaveFrame .idle) := ⟨rfl, rfl, rfl, rfl⟩
  unfold Device.takeFrame
  refine ite (fun _ => kept (HeaterStays.discardFrame d _)) fun _ => ite (fun _ => ?_) fun _ => ?_
  · exact grows ((EnergyGoesOn.numberConflict _).after line).grows
  · exact grows ((h _).after (line.trans (EnergyStays.lineActivity _))).grows

theorem receiveFrame (sender dest : Byte) (ok : Bool) {use : Device → Device} (h : ∀ e, EnergyGoesOn e (use e)) :
    HeaterEnds c d (d.receiveFrame sender dest ok use) :=
  ite (fun _ => takeFrame sender dest ok h) fun _ => same

theorem dispatchFrame (sender dest : Byte) (ok broadcast : Bool) {accept : Device → Device}
    (h : ∀ e, EnergyStays e (accept e)) : HeaterEnds c d (d.dispatchFrame sender dest ok broadcast accept) :=
  receiveFrame sender dest ok fun e => (EnergyStays.takeDispatch e h).goesOn

theorem queryFrame (sender dest : Byte) {accept : Device → Device} (h : ∀ e, EnergyStays e (accept e)) :
    HeaterEnds c d (d.queryFrame sender dest accept) :=
  ite (fun _ => takeFrame sender dest true fun e => (EnergyStays.takeDispatch e h).goesOn) fun _ => same

/-- A reply whose result leaves the counter alone. -/
theorem takeReply (kind : ReplyKind) (ok : Bool) {before : Device} {result : Request → Device → Device}
    (h : ∀ r e, EnergyGrows e (result r e)) : HeaterEnds c d (Machine.close before (d.takeReply kind ok result)) :=
  grows (EnergyGrows.takeReply d kind ok h)

end HeaterEnds

/-- What every command comes to at the heater. -/
theorem exec_heaterEnds (c : Instr) {s t : State} (h : exec c s = .next t) : HeaterEnds c s.dev t.dev := by
  cases c with
  | powerOn => exact .of_did h (.ite (fun _ => .reset (.inl rfl) ..) fun _ => .reset (.inl rfl) ..)
  | resetAssert => exact .of_did h (.reset (.inr (.inl rfl)) ..)
  | resetRelease => exact .of_did h (.ite (fun _ => .same) fun _ => .reset (.inr (.inr rfl)) ..)
  | configurationRead answer =>
    exact .of_did h (.ite (fun _ => .close (EnergyStays.configurationRead _ _)) fun _ => .same)
  | shedSelfTestEnd lineHigh => exact .of_did h (.expiry _ fun t => .listenEntry ⟨rfl, rfl, rfl, rfl⟩)
  | listenTimerExpiry => exact .of_did h (.expiry _ fun t => .close_same rfl rfl)
  | silenceTimeout =>
    exact .of_did h (.expiry _ fun t => .ite (fun _ => .close_same rfl rfl) fun _ => .kept (HeaterStays.reach _ _))
  | rejoinPeriodEnd => exact .of_did h (.ite (fun _ => .expiry _ fun t => .close_same rfl rfl) fun _ => .same)
  | conflictQuietExpiry => exact .of_did h (.expiry _ fun t => .listenEntry ⟨rfl, rfl, rfl, rfl⟩)
  | minuteTick => exact .of_did h (.expiry _ fun t => .close_same rfl rfl)
  | claimTick probe =>
    cases timer : s.dev.hcu.claimTimer with
    | none =>
      refine .of_did h ?_
      rw [timer]
      exact .same
    | some due =>
      cases (exec_ticked due probe timer).symm.trans h
      exact .grows (EnergyGrows.ticked _ due probe)
  | plugPinChange seated =>
    exact .of_did h (.ite (fun _ => .same) fun _ => .kept { HeaterStays.refl s.dev with })
  | plugPresent => exact .of_did h (.ite (fun _ => .expiry _ fun t => .close_same rfl rfl) fun _ => .same)
  | unplug =>
    exact .of_did h (.ite (fun _ => .expiry _ fun t =>
      .grows ((EnergyGrows.unplug _).after (EnergyStays.reach _ _))) fun _ => .same)
  | requestSent =>
    refine .of_did h ?_
    split
    · exact .same
    · exact .kept (HeaterStays.onClc _ rfl)
  | attemptStart =>
    refine .of_did h ?_
    split
    · exact .same
    · exact .expiry _ fun t => .kept ((HeaterStays.reach _ t).trans (HeaterStays.onClc _ rfl))
  | replyTimeout =>
    refine .of_did h ?_
    split
    · exact .same
    · exact .expiry _ fun t => .close ((EnergyStays.attemptFailed _ _ _).after (EnergyStays.reach _ _))
  | replyGapTimeout => exact .of_did h (.close (EnergyStays.frameEnds _ _))
  | replyFrameDiscarded found => exact .of_did h (.close (EnergyStays.frameEnds _ _))
  | identity payload => exact .of_did h (.takeReply _ _ fun _ _ => .of_same rfl rfl)
  | profile payload =>
    refine .of_did h (.takeReply _ _ fun _ e => ?_)
    split <;> exact .of_same rfl rfl
  | identificationRetryExpiry => exact .of_did h (.expiry _ fun t => .close_same rfl rfl)
  | pollDue => exact .of_did h (.expiry _ fun t => .close_same rfl rfl)
  | status payload =>
    exact .of_did h (.takeReply _ _ fun _ _ => (EnergyStays.takeStatus _ _).goesOn.grows)
  | tcHeld =>
    refine .of_did h ?_
    split
    · exact .close_same rfl rfl
    · exact .same
  | tcStale =>
    refine .of_did h ?_
    split
    · exact .close_same rfl rfl
    · exact .close_same rfl rfl
    · exact .same
  | opened payload => exact .of_did h (.takeReply _ _ fun _ _ => (EnergyStays.readOpened _ _).goesOn.grows)
  | records payload => exact .of_did h (.takeReply _ _ fun _ _ => (EnergyGoesOn.readRecords _ _).grows)
  | busy => exact .of_did h (.takeReply _ _ fun _ _ => (EnergyStays.readBusy _).goesOn.grows)
  | busyRetryExpiry =>
    exact .of_did h (.expiry _ fun t => .close ((EnergyStays.offerAgain _).after ⟨rfl, rfl, rfl, rfl⟩))
  | faultRefreshExpiry =>
    exact .of_did h (.expiry _ fun t => .close ((EnergyStays.requestRead _).after ⟨rfl, rfl, rfl, rfl⟩))
  | faultPendingAgeExpiry => exact .of_did h (.expiry _ fun t => .close_same rfl rfl)
  | measurementEnd millivolts milliamps supply =>
    refine .of_did h ?_
    split
    · exact .same
    · exact .expiry _ fun t => .close ((EnergyStays.endMeasurement _ _ _ _ _).after (EnergyStays.reach _ _))
  | retestTimerExpiry => exact .of_did h (.expiry _ fun t => .close_same rfl rfl)
  | fullPassTimerExpiry => exact .of_did h (.expiry _ fun t => .close_same rfl rfl)
  | fullPassAgeExpiry => exact .of_did h (.expiry _ fun t => .close_same rfl rfl)
  | signalPassTimer => exact .of_did h (.expiry _ fun t => .close_same rfl rfl)
  | windowSettlingExpiry =>
    exact .of_did h (.expiry _ fun t =>
      .close ((EnergyStays.of_lamps (LampSide.limitEffective _)).after ⟨rfl, rfl, rfl, rfl⟩))
  | shedPinChange high =>
    exact .of_did h (.ite (fun _ => .same) fun _ => .kept { HeaterStays.refl s.dev with hcu := rfl })
  | shedAsserted => exact .of_did h (.ite (fun _ => .expiry _ fun t => .close_same rfl rfl) fun _ => .same)
  | shedReleased => exact .of_did h (.ite (fun _ => .expiry _ fun t => .close_same rfl rfl) fun _ => .same)
  | holdOffExpiry => exact .of_did h (.expiry _ fun t => .close_same rfl rfl)
  | measuredPowerChange watts => exact .of_did h (.close_same rfl rfl)
  | overcurrentTimingExpiry => exact .of_did h (.ite (fun _ => .expiry _ fun t => .close_same rfl rfl) fun _ => .same)
  | stuckTimingExpiry => exact .of_did h (.ite (fun _ => .expiry _ fun t => .close_same rfl rfl) fun _ => .same)
  | shedPullExpiry =>
    exact .of_did h (.expiry _ fun t => .close ((EnergyStays.endPull _).after (EnergyStays.reach _ _)))
  | presenceChange vehicle =>
    have pin : HeaterStays s.dev (s.dev.onPins fun pins => { pins with vehicle := vehicle }) :=
      { HeaterStays.refl s.dev with }
    exact .of_did h (.ite (fun _ => .same) fun _ => .kept (pin.trans (HeaterStays.followPresence _)))
  | presenceTimerExpiry =>
    exact .of_did h (.expiry _ fun t => .ite
      (fun _ => .grows ((EnergyGrows.setPhase _ (by decide)).after (EnergyStays.reach _ _))) fun _ => .same)
  | intentWindowExpiry =>
    exact .of_did h (.expiry _ fun t => .ite
      (fun _ => .grows ((EnergyGrows.setPhase _ (by decide)).after (EnergyStays.reach _ _))) fun _ => .same)
  | spacingTimerExpiry => exact .of_did h (.expiry _ fun t => .close_same rfl rfl)
  | aspectFlash => exact .of_did h (.expiry _ fun t => .kept { HeaterStays.refl s.dev with cu := rfl })
  | lineQuiet =>
    exact .of_did h (.ite (fun _ => .expiry _ fun t =>
      .kept ((HeaterStays.reach _ t).trans ((HeaterStays.onLu _ _).trans (HeaterStays.seekLine _)))) fun _ => .same)
  | backoffExpiry =>
    exact .of_did h (.ite (fun _ => .expiry _ fun t =>
      .kept ((HeaterStays.reach _ t).trans ((HeaterStays.chooseFrame _).trans (HeaterStays.beginAttempt _))))
      fun _ => .same)
  | noticeHoldbackExpiry =>
    refine .of_did h ?_
    split
    · exact .same
    · exact .kept ((HeaterStays.reach _ _).trans (HeaterStays.seekLine _))
  | collision =>
    refine .of_did h ?_
    split
    · next flight _ _ => exact .grows (EnergyGoesOn.collided s.dev flight).grows
    · exact .same
  | noticeCompletion =>
    refine .of_did h ?_
    split
    · exact .same
    · next snap _ => exact .close (EnergyStays.noticeCompleted s.dev snap)
  | listCompletion =>
    exact .of_did h (.ite (fun _ => .close ((EnergyStays.listLeaves _).after ⟨rfl, rfl, rfl, rfl⟩)) fun _ => .same)
  | lineGapTimeout => exact .of_did h (.ite (fun _ => .kept { HeaterStays.refl s.dev with }) fun _ => .same)
  | frameFormatError found => exact .of_did h (.ite (fun _ => .kept (HeaterStays.discardFrame _ _)) fun _ => .same)
  | noticeReceived sender dest payload =>
    exact .of_did h (.receiveFrame _ _ _ fun _ => EnergyGoesOn.takeNotice _ _ _)
  | plan sender dest payload => exact .of_did h (.dispatchFrame _ _ _ _ fun _ => EnergyStays.storePlan _ _)
  | planCancel sender dest payload => exact .of_did h (.dispatchFrame _ _ _ _ EnergyStays.cancelPlan)
  | hold sender dest payload => exact .of_did h (.dispatchFrame _ _ _ _ fun _ => ⟨rfl, rfl, rfl, rfl⟩)
  | acknowledge sender dest payload => exact .of_did h (.dispatchFrame _ _ _ _ fun _ => ⟨rfl, rfl, rfl, rfl⟩)
  | queryLamps sender dest start => exact .of_did h (.queryFrame _ _ fun _ => EnergyStays.startReply _ _ _ _)
  | queryFaults sender dest start => exact .of_did h (.queryFrame _ _ fun _ => EnergyStays.startReply _ _ _ _)
  | queryHeat sender dest start => exact .of_did h (.queryFrame _ _ fun _ => EnergyStays.startReply _ _ _ _)
  | queryLine sender dest start => exact .of_did h (.queryFrame _ _ fun _ => EnergyStays.startReply _ _ _ _)
  | queryUnknownSubject sender dest subject start =>
    exact .of_did h (.queryFrame _ _ fun _ => ⟨rfl, rfl, rfl, rfl⟩)
  | listReceived sender dest => exact .of_did h (.receiveFrame _ _ _ EnergyGoesOn.refl)
  | peerEntryExpiry station =>
    refine .of_did h ?_
    split
    · exact .same
    · exact .close_same rfl rfl
  | lineStartBit => exact .of_did h (.ite (fun _ => .kept (HeaterStays.startBit _)) fun _ => .same)
  | replyFrameBegin =>
    refine .of_did h ?_
    split
    · exact .same
    · exact .kept (HeaterStays.leadHeard _ _)

end Sys2Proof.Machine
end

section
/-! THEOREMS. Every step keeps the stage within its caps (`stageStaysWithinItsCaps`) and the monitor and the bay signal
on their states (`monitorAndAspectFollow`); the energy counter only grows (`energyOnlyGrows`). -/

namespace Sys2Proof.Machine

/-! ### Reset (R154) -/

section Reset

variable (clock : Nat) (pins : Pins) (start : StartStep) (plug shed : Timer)

theorem resetBlocks_stageCapped : (Device.resetBlocks clock pins start plug shed).stageCapped :=
  ⟨Nat.zero_le _, fun _ h => by cases h⟩

theorem resetBlocks_monitorOk : (Device.resetBlocks clock pins start plug shed).monitorOk :=
  monitorOk_of_wanted rfl

theorem resetBlocks_aspectOk : (Device.resetBlocks clock pins start plug shed).aspectOk := aspectOk_of_shown rfl

end Reset

/-! ### Every step -/

/-- What every reset and every following-up leaves, and a command that closes no event keeps, holds of all that a
command comes to. -/
theorem HeaterEnds.keeps {P : Device → Prop}
    (reset : ∀ clock pins start plug shed, P (Device.resetBlocks clock pins start plug shed))
    (stays : ∀ d e, HeaterStays d e → P d → P e) (closed : ∀ before after, P (Machine.close before after)) {c : Instr}
    {d e : Device} (h : HeaterEnds c d e) (k : P d) : P e := by
  cases h with
  | reset _ clock pins start plug shed => exact reset clock pins start plug shed
  | kept u => exact stays _ _ u k
  | closed _ u => exact stays _ _ u (closed _ _)

theorem step_keeps {P : Device → Prop}
    (reset : ∀ clock pins start plug shed, P (Device.resetBlocks clock pins start plug shed))
    (stays : ∀ d e, HeaterStays d e → P d → P e) (closed : ∀ before after, P (Machine.close before after)) {s t : State}
    (k : P s.dev) (h : step s = .next t) : P t.dev := by
  unfold step at h
  split at h
  · cases h
    exact stays s.dev _ { HeaterStays.refl s.dev with } k
  · next c rest _ => exact (exec_heaterEnds c h).keeps reset stays closed k

/-- Settles O51: every following-up lowers stage and pending raise to the target (`close_stageCapped`), and no command
that closes no event moves the stage or what the target is worked out from. -/
theorem stageStaysWithinItsCaps : Obligations.StageStaysWithinItsCaps := fun _ _ =>
  step_keeps resetBlocks_stageCapped (fun _ _ h => h.stageCapped) close_stageCapped

/-- Settles O57: every following-up puts the monitor in its state and shows the aspect, and no command that closes no
event moves what they follow. -/
theorem monitorAndAspectFollow : Obligations.MonitorAndAspectFollow := fun _ _ h =>
  ⟨fun k => step_keeps resetBlocks_monitorOk (fun _ _ h => h.monitorOk) close_monitorOk k h,
    fun k => step_keeps resetBlocks_aspectOk (fun _ _ h => h.aspectOk) close_aspectOk k h⟩

/-! ### The energy counter (R116) -/

/-- Whatever a command but a reset comes to, the counter has grown in it, or coupling has begun. -/
theorem HeaterEnds.energy {c : Instr} {d e : Device} (h : HeaterEnds c d e) (p : c ≠ .powerOn) (a : c ≠ .resetAssert)
    (r : c ≠ .resetRelease) : EnergyGrows d e := by
  have stays : ∀ {d e : Device}, HeaterStays d e → EnergyStays d e := fun u =>
    ⟨by rw [u.hcu], by rw [u.hcu], by rw [u.cu], u.identity⟩
  cases h with
  | reset w => rcases w with w | w | w <;> contradiction
  | kept u => exact (stays u).goesOn.grows
  | closed grows u => exact grows.andThen ((EnergyGoesOn.close _ _).andStays (stays u))

/-- Settles O59: the tick adds to the counter up to its range, coupling sets it to 0, and nothing else writes it
(`exec_heaterEnds`). -/
theorem energyOnlyGrows : Obligations.EnergyOnlyGrows := by
  intro c s t h p a r l
  rcases (exec_heaterEnds c h).energy p a r l with ⟨grows, -, sat⟩ | fresh
  · exact .inl ⟨grows, sat⟩
  · exact .inr ⟨fresh.phase, fresh.energy, fresh.sat⟩

end Sys2Proof.Machine
end

section
/-! THEOREMS. The grant (`grantFollowsTheRanking`), and the target stage with the choice of a tick
(`targetStageAndChoice`). -/

namespace Sys2Proof.Machine

/-! ### The claims ahead and the grant (R100, R101) -/

/-- An entry is ahead in RUN and ISOLATED, by slack and then by station number (R100). -/
theorem ahead_iff (e : PeerEntry) (slack : Int) (station : Nat) : e.ahead slack station = true ↔
    (e.mode = .run ∨ e.mode = .isolated) ∧ (e.slack < slack ∨ (e.slack = slack ∧ e.station < station)) := by
  simp only [PeerEntry.ahead, Bool.and_eq_true, Bool.or_eq_true, decide_eq_true_eq, heats_iff]

/-- The sum over the entries that a test finds, as a sum over all of them. -/
theorem sum_filter_eq (test : PeerEntry → Bool) (peers : List PeerEntry) :
    ((peers.filter test).map PeerEntry.q).sum = (peers.map fun e => if test e = true then e.q else 0).sum := by
  induction peers with
  | nil => rfl
  | cons e rest ih => by_cases t : test e = true <;> simp [t, ih]

/-- Entries with claims up to 160 claim no more together than 160 each (R100). -/
theorem claimsAhead_le (d : Device) (h : ∀ e ∈ d.lu.peers, e.q ≤ 160) : d.claimsAhead ≤ d.lu.peers.length * 160 := by
  unfold Device.claimsAhead
  refine (List.sum_le_card_nsmul _ 160 ?_).trans ?_
  · intro q m
    obtain ⟨e, me, rfl⟩ := List.mem_map.mp m
    exact h e (List.mem_of_mem_filter me)
  · rw [smul_eq_mul, List.length_map]
    exact Nat.mul_le_mul_right _ (List.length_filter_le _ _)

section Grant

variable {d : Device}

theorem grantNow_fairShare (m : d.sc.mode.heats = true)
    (f : d.sc.mode = .isolated ∨ d.sc.alarms.shedLineFault = true) : d.grantNow = min d.hp.q d.conf.fairShare := by
  unfold Device.grantNow
  rw [if_pos m, if_pos f]

theorem grantNow_budget (m : d.sc.mode = .run) (f : d.sc.alarms.shedLineFault = false) :
    d.grantNow = min d.hp.q (d.conf.budget - d.claimsAhead) := by
  simp [Device.grantNow, m, f, Mode.heats]

theorem grantNow_noHeat (m : d.sc.mode.heats = false) : d.grantNow = 0 := by
  simp [Device.grantNow, m]

end Grant

/-- Settles O33: the claims ahead are those of the entries ahead, and the grant of each mode is a branch of
`Device.grantNow`. -/
theorem grantFollowsTheRanking : Obligations.GrantFollowsTheRanking := by
  refine ⟨ahead_iff, fun d => ⟨grantNow_budget, fun m => ?_, fun m f => ?_, fun m => ?_, grantNow_le⟩,
    fun d => sum_filter_eq _ _, fun d h l => ?_⟩
  · exact grantNow_fairShare (by rw [m]; rfl) (.inl m)
  · exact grantNow_fairShare (by rw [m]; rfl) (.inr f)
  · refine grantNow_noHeat ?_
    rcases m with m | m <;> rw [m] <;> rfl
  · have := claimsAhead_le d h
    omega

/-! ### The target stage (R102) -/

/-- A cap at 0 is one of those of R102, or no identity is held. -/
theorem capZero_iff (d : Device) : d.capZero = true ↔
    d.hcu.asserted = true ∨ d.hcu.faultLockout = true ∨ d.hcu.overLockout = true ∨ d.sc.mode.heats = false
      ∨ d.cu.phase.prepared = false ∨ d.cu.matchState ≠ .matched ∨ d.identity = none := by
  simp [Device.capZero, Hcu.locked, or_assoc]

theorem targetStage_capZero {d : Device} (h : d.capZero = true) : d.targetStage = 0 := if_pos h

/-- With no cap at 0 a stage is within the target where it meets the grant, the rejoin cap and the window stage, each
where there is one (R102). -/
theorem le_targetStage_iff {d : Device} {id : CoachIdentity} (i : d.identity = some id) (r : 0 < id.rating)
    (z : d.capZero = false) (n : Nat) : n ≤ d.targetStage ↔
      id.rating * n ≤ d.hcu.grant * id.stages ∧ (∀ cap, d.hcu.rejoinCap = some cap → n ≤ cap)
        ∧ (d.hcu.window ≠ .none → n ≤ d.windowStage) := by
  have grant : n ≤ d.grantStage ↔ id.rating * n ≤ d.hcu.grant * id.stages := by
    unfold Device.grantStage
    rw [i]
    exact (Nat.le_div_iff_mul_le r).trans (by rw [Nat.mul_comm])
  have window : ∀ s, n ≤ d.underWindow s ↔ n ≤ s ∧ (d.hcu.window ≠ .none → n ≤ d.windowStage) := by
    intro s
    by_cases w : d.hcu.window = .none <;> simp [Device.underWindow, Hcu.windowFlag, w]
  have rejoin : ∀ s, n ≤ d.underRejoin s ↔ n ≤ s ∧ ∀ cap, d.hcu.rejoinCap = some cap → n ≤ cap := by
    intro s
    cases c : d.hcu.rejoinCap <;> simp [Device.underRejoin, c]
  unfold Device.targetStage
  rw [z, if_neg Bool.false_ne_true, rejoin, window, grant]
  tauto

/-- Whatever caps it, the target stage meets the grant, the rejoin cap and the window stage (R102). -/
theorem targetStage_within {d : Device} {id : CoachIdentity} (i : d.identity = some id) (r : 0 < id.rating) :
    id.rating * d.targetStage ≤ d.hcu.grant * id.stages ∧ (∀ cap, d.hcu.rejoinCap = some cap → d.targetStage ≤ cap)
      ∧ (d.hcu.window ≠ .none → d.targetStage ≤ d.windowStage) := by
  cases z : d.capZero with
  | true =>
    rw [targetStage_capZero z]
    exact ⟨Nat.zero_le _, fun _ _ => Nat.zero_le _, fun _ => Nat.zero_le _⟩
  | false => exact (le_targetStage_iff i r z _).mp (Nat.le_refl _)

/-! ### The window stage (R103) -/

/-- The search ends at the largest stage within the limit. -/
theorem stageWithin_spec (rating stages limit n : Nat) :
    stageWithin rating stages limit n ≤ n
    ∧ nominalPower rating stages (stageWithin rating stages limit n) ≤ limit
    ∧ ∀ s, stageWithin rating stages limit n < s → s ≤ n → limit < nominalPower rating stages s := by
  induction n with
  | zero => exact ⟨Nat.le_refl _, by simp [stageWithin, nominalPower], fun s l u => by omega⟩
  | succ n ih =>
    unfold stageWithin
    split
    · next meets => exact ⟨Nat.le_refl _, meets, fun s l u => by omega⟩
    · next above =>
      obtain ⟨le, within, largest⟩ := ih
      refine ⟨by omega, within, fun s l u => ?_⟩
      rcases Nat.lt_or_eq_of_le u with u | rfl
      · exact largest s l (by omega)
      · omega

/-- Settles O34: the target stage by `le_targetStage_iff` below the caps at 0, the window stage by the search for it,
and the choice of a tick branch by branch. -/
theorem targetStageAndChoice : Obligations.TargetStageAndChoice := by
  refine ⟨fun d id i r => ?_, fun d i => ?_, fun d id i _ => ?_, fun hcu target => ⟨?_, ?_, ?_⟩⟩
  · have free : d.hcu.asserted = false → d.hcu.faultLockout = false → d.hcu.overLockout = false →
        d.sc.mode.heats = true → d.cu.phase.prepared = true → d.cu.matchState = .matched → d.capZero = false := by
      intro shed fault current heats prepared matched
      rw [← Bool.not_eq_true, capZero_iff]
      simp [shed, fault, current, heats, prepared, matched, i]
    obtain ⟨grant, rejoin, window⟩ := targetStage_within i r
    refine ⟨grant, fun z => ?_, rejoin, window, ?_, ?_⟩
    · exact targetStage_capZero ((capZero_iff d).mpr (by tauto))
    · intro shed fault current heats prepared matched noRejoin noWindow
      have next := le_targetStage_iff i r (free shed fault current heats prepared matched) (d.targetStage + 1)
      by_contra meets
      have := next.mpr ⟨by omega, by simp [noRejoin], by simp [noWindow]⟩
      omega
    · intro shed fault current heats prepared matched
      exact le_targetStage_iff i r (free shed fault current heats prepared matched)
  · exact targetStage_capZero ((capZero_iff d).mpr (by simp [i]))
  · unfold Device.windowStage
    rw [i]
    exact stageWithin_spec id.rating id.stages (d.conf.windowAllowance * 250) id.stages
  · intro le
    unfold Hcu.choose
    rw [if_pos le]
  · intro raises holdOff released
    simp [Hcu.choose, Nat.not_le.mpr raises, holdOff, released]
  · intro raises held
    unfold Hcu.choose
    rw [if_neg (Nat.not_le.mpr raises), if_pos (by simpa using held)]

end Sys2Proof.Machine
end

section
/-! THEOREMS. The shed sense (`shedLineStopsTheHeater`) and the current monitor (`monitorActsOnTheDraw`). -/

namespace Sys2Proof.Machine

/-! ### The shed sense (R108, R109) -/

/-- An ASSERTED sense keeps the stage at 0 (R102, R104). -/
theorem close_asserted {before d : Device} (h : d.hcu.asserted = true) : (close before d).hcu.stage = 0 := by
  have a : (close before d).hcu.asserted = true := by
    rw [(FollowedCore.close before d).hcu]
    exact h
  exact close_stage ((capZero_iff _).mpr (.inl a))

/-- A following-up begins no raise (R104). -/
theorem close_noRaise {before d : Device} (h : d.hcu.raise = none) : (close before d).hcu.raise = none := by
  rcases (FollowedCore.close before d).lower.2.2 with r | r
  · exact r.trans h
  · exact r

/-- The release of the sense, with the hold-off of the station number and without a configuration (R109). -/
theorem releaseShed_eq (d : Device) : d.releaseShed =
    { d with
      hcu := { d.hcu with
        asserted := false, shedFilter := none,
        holdOff := d.sc.config.map fun conf => d.clock + (500000 + 100000 * conf.station),
        shedFlag := d.hcu.shedFlag && d.sc.config.isSome } } := by
  unfold Device.releaseShed Device.holdOffTimer Device.conf
  cases d.sc.config <;> rfl

/-- What SHED_RELEASED leaves to be followed up (R109). -/
theorem completes_shedReleased {s : State} {t0 : Nat} (t : s.dev.hcu.shedFilter = some t0)
    (a : s.dev.hcu.asserted = true) (p : s.dev.pins.shedHigh = true) :
    Completes .shedReleased s (s.dev.reach t0).releaseShed := by
  refine completes_of_close (before := s.dev) (exec_next rfl ?_)
  rw [if_pos ⟨a, p⟩, t]
  rfl

/-- Settles O35: the cap of an ASSERTED sense takes the stage to 0 in the following-up, and release and hold-off leave
their devices to it. -/
theorem shedLineStopsTheHeater : Obligations.ShedLineStopsTheHeater := by
  refine ⟨fun s t0 t a p => ?_, fun s t0 conf t a p c => ?_, fun s t0 t a p c => ?_, fun s t0 t => ?_⟩
  · refine ⟨{ s with dev := close s.dev _ }, exec_next rfl ?_, rfl, followed_close s.dev _, close_asserted rfl,
      close_noRaise rfl⟩
    rw [if_pos ⟨a, p⟩, t]
    rfl
  · have k := completes_shedReleased t a p
    rw [releaseShed_eq] at k
    simpa [Device.reach, c] using k
  · have k := completes_shedReleased t a p
    rw [releaseShed_eq] at k
    simpa [Device.reach, c] using k
  · refine completes_of_close (before := s.dev) (exec_next rfl ?_)
    rw [t]
    rfl

/-! ### The current monitor (R112 to R114) -/

section Monitor

variable (before d : Device)

/-- A following-up ends a pull with the draw below 5 % of Pfull, and no other (R112, R113). -/
theorem close_pull :
    (20 * d.pins.power < (close before d).monitorFull → (close before d).hcu.pull = .none)
    ∧ ((close before d).monitorFull ≤ 20 * d.pins.power →
        (close before d).hcu.pull = d.hcu.pull ∧ (close before d).hcu.pullTimer = d.hcu.pullTimer)
    ∧ (d.hcu.pull = .none → (close before d).hcu.pull = .none) := by
  obtain ⟨stays, ends⟩ := (close_heater d before).pull
  rw [(FollowedCore.close before d).pins] at stays ends
  have none : d.hcu.pull = .none → (close before d).hcu.pull = .none := fun n => (stays (.inl n)).1.trans n
  refine ⟨fun low => ?_, fun high => stays (.inr high), none⟩
  by_cases n : d.hcu.pull = .none
  · exact none n
  · exact (ends n low).1

/-- The timer of the monitor: 1 s and 2 s where a timing begins, none where none runs, and kept where the state stays
(R112, R113). -/
theorem close_monitorTimer :
    ((close before d).hcu.monitor = .overTiming → d.hcu.monitor ≠ .overTiming →
        (close before d).hcu.monitorTimer = some (d.clock + 1000000))
    ∧ ((close before d).hcu.monitor = .stuckTiming → d.hcu.monitor ≠ .stuckTiming →
        (close before d).hcu.monitorTimer = some (d.clock + 2000000))
    ∧ ((close before d).hcu.monitor = .watching → d.hcu.monitor ≠ .watching →
        (close before d).hcu.monitorTimer = none)
    ∧ ((close before d).hcu.monitor = d.hcu.monitor → (close before d).hcu.monitorTimer = d.hcu.monitorTimer) := by
  have timer := (close_heater d before).monitor.2
  rw [timer]
  refine ⟨fun m n => ?_, fun m n => ?_, fun m n => ?_, fun m => if_pos m⟩
  all_goals rw [m, if_neg n.symm]

/-- An overcurrent lockout takes claim, grant and stage to 0 (R93, R114). -/
theorem close_overLockout (h : d.hcu.overLockout = true) :
    (close before d).hp.q = 0 ∧ (close before d).hcu.grant = 0 ∧ (close before d).hcu.stage = 0 := by
  have o : (close before d).hcu.overLockout = true := by
    rw [(FollowedCore.close before d).hcu]
    exact h
  have l : (close before d).hcu.locked = true := (locked_iff _).mpr (.inr o)
  exact close_forced (by simp [Device.claimForced, l])

end Monitor

/-- The end of a pull latches CONTACTOR_FAIL where the draw of an OVERCURRENT pull stands above 5 % (R112, R113). -/
theorem endPull_eq {d : Device} {fails : Bool}
    (f : fails = (decide (d.hcu.pull = .overcurrent) && decide (d.monitorFull < 20 * d.pins.power))) : d.endPull =
      { d with
        sc := { d.sc with alarms := { d.sc.alarms with contactorFail := d.sc.alarms.contactorFail || fails } },
        hcu := { d.hcu with
          armed := d.hcu.armed && !fails, pull := .none, pullTimer := none, monitor := .watching,
          monitorTimer := none } } := by
  have iff : (d.hcu.pull = .overcurrent ∧ d.draws = true) ↔ fails = true := by
    rw [f, Bool.and_eq_true, decide_eq_true_eq]
    rfl
  unfold Device.endPull
  cases fails with
  | true => rw [if_pos (iff.mpr rfl)]; simp [Device.contactorFails, Device.onAlarms, Device.onSc, Device.onHcu]
  | false =>
    rw [if_neg fun h => Bool.false_ne_true (iff.mp h)]
    simp [Device.onHcu]

/-- Settles O36: of what each command leaves, the following-up ends or keeps the pull (`close_pull`), puts the monitor
in its state with its timer (`close_monitorTimer`), and takes the claim with the lockout (`close_overLockout`). -/
theorem monitorActsOnTheDraw : Obligations.MonitorActsOnTheDraw := by
  refine ⟨fun s watts => ?_, fun s t0 m t => ?_, fun s t0 m t => ?_, fun s t0 fails t f => ?_⟩
  · obtain ⟨low, high, -⟩ := close_pull s.dev { s.dev with pins := { s.dev.pins with power := watts } }
    obtain ⟨overdraw, stuck, watching, stays⟩ :=
      close_monitorTimer s.dev { s.dev with pins := { s.dev.pins with power := watts } }
    exact ⟨_, exec_next rfl rfl, rfl, followed_close s.dev _, low, fun h => (high h).1, close_monitorOk _ _, overdraw,
      stuck, watching, stays⟩
  · obtain ⟨claim, grant, stage⟩ := close_overLockout s.dev (s.dev.reach t0).overcurrent rfl
    obtain ⟨-, pull, -⟩ := close_pull s.dev (s.dev.reach t0).overcurrent
    refine ⟨{ s with dev := close s.dev _ }, exec_next rfl ?_, rfl, followed_close s.dev _, claim, grant, stage, pull⟩
    rw [if_pos m, t]
    rfl
  · obtain ⟨-, pull, -⟩ := close_pull s.dev ((s.dev.reach t0).contactorFails.beginPull .contactor)
    refine ⟨{ s with dev := close s.dev _ }, exec_next rfl ?_, rfl, followed_close s.dev _, pull⟩
    rw [if_pos m, t]
    rfl
  · obtain ⟨-, -, noPull⟩ := close_pull s.dev (s.dev.reach t0).endPull
    have ended := endPull_eq (d := s.dev.reach t0) f
    rw [ended] at noPull
    refine ⟨{ s with dev := close s.dev _ }, exec_next rfl ?_, rfl, followed_close s.dev _, noPull rfl⟩
    rw [t]
    exact congrArg (close s.dev) ended

end Sys2Proof.Machine
end

section
/-! THEOREMS. The statements that fail as they stand (`not_stageStaysAnnounced`, `not_noticesKeepThePeerTable`): each
speaks of every state, and its counterexample is a state whose parts do not agree with one another. The premise that
would rule that state out is named with each. -/

namespace Sys2Proof.Machine

/-! ### Identification where a READ was pending (R29, R32) -/

/-- A station in RUN without a coach, an IDENTIFY standing where the FTU puts its OPEN-READ or FETCH. -/
def identifyAsRead : Device := { inRun with clc := { inRun.clc with pendingRead := some .identify } }

/-- The invariants hold: nothing is announced, and no identification is pending or in flight. -/
theorem identifyAsRead_invariants :
    identifyAsRead.stageAnnounced ∧ identifyAsRead.stageCapped ∧ identifyAsRead.identifiesInCoupling := by
  refine ⟨⟨by decide, nofun, nofun⟩, ⟨by decide, nofun⟩, ?_⟩
  unfold Device.identifiesInCoupling
  decide

set_option maxRecDepth 20000 in
/-- The arbiter serves the pending READ with what stands there, in VACANT. -/
theorem identifyAsRead_event : ∃ t, step ⟨[.measuredPowerChange 0], identifyAsRead⟩ = .next t
    ∧ t.dev.clc.identifying = true ∧ t.dev.cu.phase = .vacant :=
  ⟨_, rfl, by decide, by decide⟩

/-- Refutes O52: an IDENTIFY that is pending as a READ is sent outside COUPLING. The statement leaves out that a pending
READ is an OPEN-READ or a FETCH, which is all that the FTU offers (R37). -/
theorem not_stageStaysAnnounced : ¬ Obligations.StageStaysAnnounced := by
  intro h
  obtain ⟨announced, capped, identifies⟩ := identifyAsRead_invariants
  obtain ⟨t, x, inFlight, phase⟩ := identifyAsRead_event
  obtain ⟨-, -, coupling, -⟩ := h ⟨[.measuredPowerChange 0], identifyAsRead⟩ t announced capped identifies x
  cases phase.symm.trans (coupling (.inr (.inr (.inr inFlight))))

/-! ### A contest outside CLEARING (R128, R129) -/

/-- A bay in READY that LANE keeps there, its neighbour in READY before it, with the intent window of a contest left
open. -/
def contestInReady : Device :=
  { eligibleReady with
    cu := { eligibleReady.cu with
      plan := some ⟨4417, 4, 36, false, false, 0#16, false⟩, intent := .window,
      blocks := { Blocks.empty with lane := true } },
    lu := { eligibleReady.lu with
      peers := [⟨30, 3, 1, .ready, none, .run, 0, 0, none, 0⟩, ⟨31, 3, 1, .vacant, none, .run, 0, 0, none, 0⟩] } }

/-- The payload of a NOTICE from a bay in CLEARED in another lane. -/
def clearedElsewhere : List Byte :=
  [4#8, 0x31#8, 6#8, 0#8, 0#8, 0#8, 0#8, 4#8, 0#8, 0#8, 0#8, 0#8, 0#8, 0#8, 0#8, 0#8]

theorem contestInReady_standing : contestInReady.evaluated ∧ contestInReady.phaseSettled
    ∧ contestInReady.hearsFrom 30#8 0#8 ∧ contestInReady.cu.phase = .ready := by
  refine ⟨⟨by decide, by decide, by decide⟩, ⟨by decide, fun n => absurd n.1 (by decide)⟩, ?_, rfl⟩
  unfold Device.hearsFrom
  decide

set_option maxRecDepth 20000 in
/-- LANE goes and the bay moves to CLEARING before it takes the NOTICE, and loses its contest by it: it is back in
READY, without a contest. -/
theorem contestInReady_event : ∃ t, exec (.noticeReceived 30#8 0#8 clearedElsewhere) ⟨[], contestInReady⟩ = .next t
    ∧ t.dev.cu.phase = .ready ∧ t.dev.cu.intent = .none :=
  ⟨_, rfl, by decide, by decide⟩

/-- Refutes O43: the NOTICE frees the lane, so that the bay moves to CLEARING, and loses the contest there in the same
event. It stands in READY before and after, and the contest data that it met in READY are gone. The statement leaves out
that a contest goes on in CLEARING alone (`Cu.contestOk`). -/
theorem not_noticesKeepThePeerTable : ¬ Obligations.NoticesKeepThePeerTable := by
  rintro ⟨notices, -⟩
  obtain ⟨evaluated, settled, hears, ready⟩ := contestInReady_standing
  obtain ⟨t, x, -, -, -, -, -, -, -, -, -, -, -, contest, -⟩ :=
    notices ⟨[], contestInReady⟩ _ _ clearedElsewhere _ _ hears rfl (by decide) rfl rfl
  obtain ⟨u, y, phase, intent⟩ := contestInReady_event
  obtain rfl : t = u := Host.Outcome.next.inj (x.symm.trans y)
  obtain ⟨-, goesOn⟩ := contest false ⟨nofun, fun ⟨clearing, _⟩ => nomatch ready.symm.trans clearing⟩
  obtain ⟨stays, -⟩ := goesOn rfl evaluated settled (phase.trans ready.symm)
  cases intent.symm.trans stays

end Sys2Proof.Machine
end

section
/-! SUPPORT. HEAT, LAMP and FAULT in a following-up: a section stands as it did, or with a change of its content marked
(`SectionsMarked`), so that one that is OFF stays OFF. -/

namespace Sys2Proof.Machine

/-! ### One section (R13) -/

/-- `y` is the section `x`, or `x` with a change of its content marked. -/
def Section.Marked (x y : Section) : Prop := y = x ∨ y = x.touch

namespace Section.Marked

theorem touch_touch (x : Section) : x.touch.touch = x.touch := by
  unfold Section.touch
  split <;> simp_all

theorem touched (x : Section) : Section.Marked x x.touch := .inr rfl

theorem ite (p : Prop) [Decidable p] (x : Section) : Section.Marked x (if p then x.touch else x) := by
  split
  · exact touched x
  · exact .inl rfl

theorem trans {x y z : Section} (h : Section.Marked x y) (k : Section.Marked y z) : Section.Marked x z := by
  rcases h with rfl | rfl
  · exact k
  · exact .inr (k.elim id fun k => k.trans (touch_touch x))

/-- A change in a section that is OFF is not recorded (R13). -/
theorem off {x y : Section} (h : Section.Marked x y) (o : x = .off) : y = .off := by
  subst o
  exact h.elim id id

end Section.Marked

/-! ### The sections of the coach in the operations of the LTU -/

/-- HEAT, LAMP and FAULT stand in `e` as in `d`, or with a change of their content marked. -/
structure SectionsMarked (d e : Device) : Prop where
  heat : Section.Marked d.sc.heat e.sc.heat
  lamp : Section.Marked d.sc.lamp e.sc.lamp
  fault : Section.Marked d.sc.fault e.sc.fault

namespace SectionsMarked

theorem of_sc {d e : Device} (h : e.sc = d.sc) : SectionsMarked d e := by
  constructor <;> rw [h] <;> exact .inl rfl

theorem trans {a b c : Device} (h : SectionsMarked a b) (k : SectionsMarked b c) : SectionsMarked a c :=
  ⟨h.heat.trans k.heat, h.lamp.trans k.lamp, h.fault.trans k.fault⟩

theorem after {a b c : Device} (k : SectionsMarked b c) (h : b.sc = a.sc) : SectionsMarked a c := (of_sc h).trans k

variable (d : Device)

theorem touchHeat : SectionsMarked d d.touchHeat := ⟨.touched _, .inl rfl, .inl rfl⟩

theorem markLamp (before : Device) : SectionsMarked d (before.markLamp d) := by
  unfold Device.markLamp
  split
  · exact of_sc rfl
  · exact ⟨.inl rfl, .touched _, .inl rfl⟩

theorem hcuWindowRequest : SectionsMarked d d.hcuWindowRequest := by
  unfold Device.hcuWindowRequest
  split <;> exact after (touchHeat _) rfl

theorem releaseWindow : SectionsMarked d d.releaseWindow := by
  unfold Device.releaseWindow Device.hcuWindowRelease
  split
  · exact of_sc rfl
  · split
    · exact of_sc rfl
    · exact after (touchHeat _) rfl

theorem beginMeasurement : SectionsMarked d d.beginMeasurement := by
  unfold Device.beginMeasurement
  split <;> exact of_sc rfl

theorem limitEffective : SectionsMarked d d.limitEffective := by
  unfold Device.limitEffective
  split
  · exact after (beginMeasurement _) rfl
  · exact of_sc rfl

theorem requestWindow : SectionsMarked d d.requestWindow := by
  have asked := hcuWindowRequest (d.onLtu fun ltu => { ltu with window := .waiting })
  unfold Device.requestWindow
  dsimp only
  split
  · exact after (asked.trans (limitEffective _)) rfl
  · exact after asked rfl

theorem startPass (pass : Pass) : SectionsMarked d (d.startPass pass) := by
  unfold Device.startPass
  split
  · dsimp only
    split
    · exact after (beginMeasurement _) rfl
    · exact of_sc rfl
    · exact after (requestWindow _) rfl
  · exact (releaseWindow d).trans (after (beginMeasurement _) rfl)

theorem beginPass (kind : PassKind) (set : List Nat) : SectionsMarked d (d.beginPass kind set) := by
  cases kind <;> exact after (markLamp _ d) rfl

theorem servePass (kind : PassKind) : SectionsMarked d (d.servePass kind) :=
  after ((beginPass _ _ _).trans (startPass _ _)) rfl

theorem servePasses (n : Nat) : SectionsMarked d (d.servePasses n) := by
  induction n generalizing d with
  | zero => exact of_sc rfl
  | succ n ih =>
    unfold Device.servePasses
    split
    · exact releaseWindow d
    · split
      · exact (beginPass d _ _).trans ((releaseWindow _).trans (after (ih _) rfl))
      · exact servePass d _
    · exact of_sc rfl
    · split
      · split
        · exact (beginPass d _ _).trans (ih _)
        · exact after (servePass _ _) rfl
      · exact of_sc rfl

theorem runLamps : SectionsMarked d d.runLamps := by
  have stopped : SectionsMarked d d.takeStop := by
    unfold Device.takeStop Device.stopPass
    split
    · dsimp only
      split
      · exact after (releaseWindow _) rfl
      · exact of_sc rfl
    · exact of_sc rfl
  exact stopped.trans (servePasses _ 4)

/-! ### The following-up as a whole -/

/-- A following-up in which no coupling begins records changes in the sections of the coach, and does nothing else to
them (R12, R13). -/
theorem close (before : Device) (c : d.coupleNow = false) : SectionsMarked d (Machine.close before d) := by
  have phases : (d.settlePhases 8).forceClaim.capStage.sc = d.sc := by
    rw [forceClaim_eq]
    exact (settlePhases_sc_hp d 8 c).1
  have units : SectionsMarked d d.settle := after ((runLamps _).trans (of_sc (settle_sc d))) phases
  have marks : SectionsMarked d.settle (before.markChanges d.settle) := by
    rw [markChanges_eq]
    exact ⟨.ite _ _, .ite _ _, .ite _ _⟩
  have line (e : Device) : SectionsMarked e e.seekLine := by
    unfold Device.seekLine
    split <;> exact of_sc rfl
  exact (units.trans marks).trans (line _)

end SectionsMarked

end Sys2Proof.Machine
end

section
/-! SUPPORT. The entries to VACANT, CLEARED and DEPARTING, unit by unit; a following-up in VACANT and DEPARTING; and
that it leaves the coach torn down which the entry to VACANT has torn down (`TornDown`). -/

namespace Sys2Proof.Machine

/-! ### The entries to VACANT, CLEARED and DEPARTING (Chapter 7) -/

section Entries

variable (d : Device)

theorem handPhase_eq (old new : Phase) : d.handPhase old new =
    { d with
      sc := d.sc.onPhase new, clc := d.clc.onPhase new, ftu := d.ftu.onPhase old new, ltu := d.ltu.onPhase old new,
      hp := d.hp.onPhase new, hcu := d.hcu.onPhase new } := by
  simp [Device.handPhase, Device.onLtu, Device.onFtu, Device.onClc, Device.onHp, Device.onHcu, Device.onSc]

/-- Entry to VACANT: the coach goes, plan and hold lane set stay (R3, R34, R41, R64, R95, R111, R137). -/
theorem setPhase_vacant_eq : d.setPhase .vacant =
    { d with
      sc := { d.sc with heat := .off, lamp := .off, fault := .off }
      identity := none
      clc := { d.clc with lastStatus := none, tcState := .none }
      ftu := Ftu.reset
      ltu := d.ltu.onPhase d.cu.phase .vacant
      hp := { Hp.reset with toInUse := d.hp.toInUse, probeLast := d.hp.probeLast }
      hcu := { d.hcu with window := .none, settling := none }
      cu := { d.cu with
        phase := .vacant, retryHold := false, intent := .none, intentTimer := none, key := none,
        presence := none } } := by
  simp [Device.setPhase, Device.dropIdentity, Device.setIdentity, Device.cuPhase, Device.onCu, handPhase_eq,
    Phase.tornDown, Sc.onPhase, Clc.onPhase, Ftu.onPhase, Hp.onPhase, Hcu.onPhase]

/-- Entry to CLEARED: the contest is over and the spacing timer is restarted (R127, R130). -/
theorem setPhase_cleared_eq : d.setPhase .cleared =
    { d with
      ltu := d.ltu.onPhase d.cu.phase .cleared
      cu := { d.cu with
        phase := .cleared, retryHold := false, intent := .none, intentTimer := none, key := none,
        spacing := d.spacingTimer, presence := none } } := by
  simp [Device.setPhase, Device.dropIdentity, Device.cuPhase, Device.onCu, handPhase_eq, Phase.tornDown, Sc.onPhase,
    Clc.onPhase, Ftu.onPhase, Hp.onPhase, Hcu.onPhase]

/-- Entry to DEPARTING: the coach stays, the plan is consumed and the presence timer starts (R4, R11, R51, R135,
R136). -/
theorem setPhase_departing_eq : d.setPhase .departing =
    { d with
      ftu := { d.ftu.endAborted with refreshTimer := none }
      ltu := { d.ltu.onPhase d.cu.phase .departing with
        channels := (d.ltu.onPhase d.cu.phase .departing).channels.map (Channel.withMask none) }
      cu := { d.cu with
        phase := .departing, retryHold := false, intent := .none, intentTimer := none, key := none,
        presence := d.presenceTimer, plan := none } } := by
  simp [Device.setPhase, Device.dropIdentity, Device.applyMask, Device.onLtu, Device.cuPhase, Device.onCu,
    handPhase_eq, Phase.tornDown, Sc.onPhase, Clc.onPhase, Ftu.onPhase, Hp.onPhase, Hcu.onPhase]

end Entries

/-- Channels 1..16 are OFF and cleared at the entry to VACANT (R64). -/
theorem onPhase_vacant_coachOff (ltu : Ltu) (old : Phase) : (ltu.onPhase old .vacant).coachOff := by
  have torn : (ltu.onPhase old .vacant).channels = ltu.channels.map Channel.tornDown := by cases old <;> rfl
  intro c m u
  rw [torn] at m
  exact JustCoupling.tearDown_coachOff ltu c m u

/-- What the entry to VACANT and a following-up of it leave as it is, of what the statements name (R11, R95, R137). -/
theorem FollowedCore.of_vacant {d b : Device} (h : FollowedCore (d.setPhase .vacant) b) : b.clock = d.clock
    ∧ b.pins = d.pins ∧ b.sc.alarms = d.sc.alarms ∧ b.cu.plan = d.cu.plan ∧ b.cu.holdLanes = d.cu.holdLanes
    ∧ b.lu.peers = d.lu.peers ∧ b.hp.toInUse = d.hp.toInUse ∧ b.hp.probeLast = d.hp.probeLast := by
  rw [setPhase_vacant_eq] at h
  obtain ⟨alarms, -, -, -, peers, -⟩ := h.kept
  obtain ⟨plan, lanes⟩ := h.plan
  obtain ⟨probe, last⟩ := h.probe
  exact ⟨h.clock, h.pins, alarms, plan, lanes, peers, probe, last⟩

/-! ### A bay in VACANT or DEPARTING -/

/-- Without coupling no phase rule applies in VACANT and DEPARTING (R27). -/
theorem nextPhase_none_noCoach {d : Device} (p : d.cu.phase = .vacant ∨ d.cu.phase = .departing)
    (c : d.coupleNow = false) : d.refresh.nextPhase = none := by
  have phase : d.refresh.cu.phase = d.cu.phase := rfl
  have couple : d.refresh.coupleNow = false := c
  unfold Device.nextPhase
  rw [phase]
  rcases p with p | p <;> simp [p, couple]

/-- A bay that the plug or the mode keeps from coupling stays in VACANT or DEPARTING (R27). -/
theorem InPhase.of_noCoach {a b : Device} (f : Followed a b) (p : a.cu.phase = .vacant ∨ a.cu.phase = .departing)
    (c : a.coupleNow = false) : InPhase a b := ⟨f, c, (f.uncoupled c).1.phase p⟩

/-- Every channel has number, status, last values and mask of one that was there before the following-up. -/
theorem Stays.mem_lasting {a b : Device} (h : Stays a b) {c : Channel} (m : c ∈ b.ltu.channels) :
    ∃ x ∈ a.ltu.channels, x.lasting = c.lasting := by
  have same : b.ltu.channels.map Channel.lasting = a.ltu.channels.map Channel.lasting := h.channels
  have member := List.mem_map_of_mem (f := Channel.lasting) m
  rw [same] at member
  exact List.mem_map.mp member

/-! ### A unit without coach channels (R64, R70 to R73) -/

section CoachOff

variable {a b d e : Device}

/-- Outside PREPARING..CLEARED no pass holds a coach channel (R71 to R73). -/
theorem hasCoach_unprepared (p : d.cu.phase.prepared = false) (kind : PassKind) :
    hasCoach (d.passSet kind) = false := by
  unfold hasCoach
  rw [List.any_eq_false]
  intro n m
  obtain ⟨c, -, rfl, member⟩ := (mem_passSet_iff d kind n).mp m
  cases kind with
  | retest =>
    obtain ⟨-, signal | ⟨-, prepared, -⟩⟩ := (inRetest_iff d c).mp member
    · simpa using signal.1
    · rw [p] at prepared
      cases prepared
  | signal => simpa [Device.inPass, Channel.ofCoach] using (Bool.and_eq_true_iff.mp member).2
  | full => simpa [Device.inPass, Channel.ofCoach, p] using (Bool.and_eq_true_iff.mp member).2

/-- The corroboration leaves channels that are OFF as they are (R69). -/
theorem corroborate_coachOff (off : d.ltu.coachOff) : d.corroborate.ltu.coachOff :=
  JustCoupling.coachOff_map (f := Channel.corroborated d.ftu) (fun c => (corroborated_keeps d.ftu c).1)
    (fun c _ e => by rw [e]; simp [Channel.corroborated, Channel.joins, Channel.fitted, Channel.off]) off

/-- The beginning of a full pass changes nothing in a channel that is OFF and cleared (R72). -/
theorem beginFull_coachOff (set : List Nat) {l : List Channel} (off : ∀ c ∈ l, c.num ≤ 16 → c = Channel.off c.num) :
    ∀ c ∈ l.map (Channel.beginFull set), c.num ≤ 16 → c = Channel.off c.num := by
  refine JustCoupling.coachOff_map (f := Channel.beginFull set) (fun c => ?_) (fun c _ e => ?_) off
  · unfold Channel.beginFull
    split <;> rfl
  · rw [e]
    simp [Channel.beginFull, Channel.off]

/-- The serving of the pending kinds outside PREPARING..CLEARED leaves the coach channels OFF, and asks for no window
(R70 to R75). -/
theorem PassesServed.coachOff (h : PassesServed d e) (p : d.cu.phase.prepared = false) (off : d.ltu.coachOff)
    (w : d.hcu.window = .none) : e.ltu.coachOff ∧ e.hcu.window = .none := by
  obtain ⟨-, channels⟩ := h.full
  refine ⟨?_, ?_⟩
  · unfold Ltu.coachOff
    rw [channels]
    split
    · exact beginFull_coachOff _ off
    · exact off
  · obtain ⟨-, released, kept, -⟩ := h.released fun pass k => by
      rw [h.pass] at k
      obtain ⟨kind, -, rfl⟩ := Option.map_eq_some_iff.mp k
      exact hasCoach_unprepared p kind
    by_cases n : d.ltu.window = .none
    · exact (kept n).trans w
    · exact released n

/-- A following-up that leaves a bay outside PREPARING..CLEARED leaves the coach channels OFF, and asks for no window
(R64, R70 to R76). -/
theorem InPhase.coachOff (h : InPhase a b) (p : a.cu.phase.prepared = false) (off : a.ltu.coachOff)
    (w : a.hcu.window = .none) : b.ltu.coachOff ∧ b.hcu.window = .none := by
  have corroborated := corroborate_coachOff off
  cases n : a.ltu.pass with
  | none => exact (h.idle n).coachOff p corroborated w
  | some pass =>
    cases s : a.stopFalls with
    | true =>
      refine (h.stopped (Option.isSome_of_eq_some n) s).coachOff p corroborated ?_
      show (if _ then _ else a.hcu.window) = _
      rw [w, ite_self]
    | false =>
      cases k : a.corroborate.kindBefore pass with
      | none =>
        obtain ⟨window, -, ltu⟩ := h.goesOn n s k
        refine ⟨?_, window.trans w⟩
        rw [ltu]
        split <;> exact corroborated
      | some kind =>
        exact (h.givesWay n s (Option.isSome_of_eq_some k)).coachOff p
          ((JustCoupling.unbegin (d := a.corroborate) pass).off corroborated) w

end CoachOff

/-! ### The coach torn down (R137) -/

/-- A bay in VACANT whose coach is torn down (R3, R12, R34, R41, R64, R95, R111, R128, R136, R137). -/
structure TornDown (d : Device) : Prop where
  phase : d.cu.phase = .vacant
  identity : d.identity = none
  status : d.clc.lastStatus = none ∧ d.clc.tcState = .none
  ftu : d.ftu = Ftu.reset
  channels : d.ltu.coachOff
  hp : d.hp = { Hp.reset with toInUse := d.hp.toInUse, probeLast := d.hp.probeLast }
  window : d.hcu.window = .none
  sections : d.sc.heat = .off ∧ d.sc.lamp = .off ∧ d.sc.fault = .off
  contest : d.cu.intent = .none ∧ d.cu.key = none
  presence : d.cu.presence = none

namespace TornDown

theorem enter (d : Device) : TornDown (d.setPhase .vacant) where
  phase := rfl
  identity := rfl
  status := ⟨rfl, rfl⟩
  ftu := rfl
  channels := onPhase_vacant_coachOff d.ltu d.cu.phase
  hp := rfl
  window := rfl
  sections := ⟨rfl, rfl, rfl⟩
  contest := ⟨rfl, rfl⟩
  presence := rfl

/-- A following-up in which no coupling begins leaves the coach torn down. -/
theorem close {d : Device} (h : TornDown d) (c : d.coupleNow = false) (before : Device) :
    TornDown (Machine.close before d) := by
  have followed := followed_close before d
  have inPhase := InPhase.of_noCoach followed (.inl h.phase) c
  obtain ⟨channels, window⟩ := inPhase.coachOff (by rw [h.phase]; rfl) h.channels h.window
  obtain ⟨-, bay, -⟩ := followed
  obtain ⟨stays, link⟩ := inPhase.followed.uncoupled c
  have sections := SectionsMarked.close d before c
  have cu := bay.stays (nextPhase_none_noCoach (.inl h.phase) c)
  obtain ⟨heat, lamp, fault⟩ := h.sections
  exact {
    phase := inPhase.phase.trans h.phase
    identity := stays.identity.trans h.identity
    status := by rw [stays.clc]; exact h.status
    ftu := by
      have idle : d.readStarts (Machine.close before d).cu.phase = false := by
        simp [Device.readStarts, Device.readAsked, h.ftu, h.phase, Ftu.reset]
      rw [(link.serves idle).1]
      simp [Device.readAsked, h.ftu, h.phase, Ftu.reset]
    channels := channels
    hp := by
      obtain ⟨same, claim⟩ := stays.hp
      have q : d.hp.q = 0 := by rw [h.hp]; rfl
      have zero : (Machine.close before d).hp.q = 0 := claim.elim (·.trans q) id
      rw [same, zero, h.hp]
      rfl
    window := window
    sections := ⟨sections.heat.off heat, sections.lamp.off lamp, sections.fault.off fault⟩
    contest := by rw [cu]; exact h.contest
    presence := by rw [cu]; exact h.presence }

/-- Outside PREPARING..CLEARED the claim is forced to 0 (R93). -/
theorem claimForced {d : Device} (h : TornDown d) : d.claimForced = true := by
  rw [Device.claimForced, h.phase]
  rfl

end TornDown

end Sys2Proof.Machine
end

section
/-! THEOREMS. The unplug (`unplugMovesThePhase`, `unplugLeavesOfTheCoach`) and the timers of the Clearance Unit
(`clearanceTimersMoveTheBay`). -/

namespace Sys2Proof.Machine

/-! ### What an unplug hands to the following-up (R38, R134) -/

/-- The phase an unplug leads to (R134). -/
def Phase.afterUnplug (p : Phase) : Phase := if p = .cleared ∨ p = .departing then .departing else .vacant

/-- What an unplug at `d` leaves, in whatever phase it comes (R38, R134). -/
structure UnplugLeaves (d e : Device) : Prop where
  clock : e.clock = d.clock
  pins : e.pins = d.pins
  phase : e.cu.phase = d.cu.phase.afterUnplug
  alarms : e.sc.alarms =
    { d.sc.alarms with
      pullout := d.sc.alarms.pullout
        || decide (d.cu.phase = .preparing ∨ d.cu.phase = .ready ∨ d.cu.phase = .clearing) }
  sc : e.sc.mode = d.sc.mode ∧ e.sc.config = d.sc.config
  clc : e.clc = { d.clc.unplugged with lastStatus := e.clc.lastStatus, tcState := e.clc.tcState }
  hcu : e.hcu = { d.hcu with window := e.hcu.window, settling := e.hcu.settling }
  lanes : e.cu.holdLanes = d.cu.holdLanes
  lu : e.lu = d.lu

theorem unplugPhase_leaves (d : Device) : UnplugLeaves d d.unplugLink.unplugPhase := by
  obtain ⟨link, -⟩ := unplugLink_eq d
  generalize d.unplugLink.ftu = ftu at link
  rw [link]
  unfold Device.unplugPhase
  cases p : d.cu.phase <;> simp only [p, setPhase_vacant_eq, setPhase_departing_eq]
  case vacant | departing | coupling | coupled | cleared =>
    constructor <;> simp [p, Phase.afterUnplug, Clc.unplugged]
  case preparing | ready | clearing =>
    constructor <;> simp [p, Phase.afterUnplug, Clc.unplugged, Device.onAlarms, Device.onSc]

/-- An unplug in COUPLING..CLEARING enters VACANT, HP and CU as they were (R134). -/
theorem unplugPhase_vacant {d : Device} (p : d.cu.phase = .coupling ∨ d.cu.phase = .coupled ∨ d.cu.phase = .preparing
      ∨ d.cu.phase = .ready ∨ d.cu.phase = .clearing) :
    ∃ e : Device, d.unplugLink.unplugPhase = e.setPhase .vacant ∧ e.hp = d.hp ∧ e.cu = d.cu := by
  obtain ⟨link, -⟩ := unplugLink_eq d
  have phase : d.unplugLink.cu.phase = d.cu.phase := by rw [link]
  have kept : d.unplugLink.hp = d.hp ∧ d.unplugLink.cu = d.cu := by rw [link]; exact ⟨rfl, rfl⟩
  unfold Device.unplugPhase
  rw [phase]
  rcases p with p | p | p | p | p <;> rw [p] <;> exact ⟨_, rfl, kept⟩

theorem endAborted_idem (ftu : Ftu) : ftu.endAborted.endAborted = ftu.endAborted := by
  unfold Ftu.endAborted
  cases h : ftu.read <;> simp [h]

/-- A running sequence ends ABORTED (R51). -/
theorem endAborted_ends (ftu : Ftu) : ftu.endAborted.read = none
    ∧ (ftu.read.isSome = true → ftu.endAborted.lastEnding = .aborted ∧ ftu.endAborted.reread = false) := by
  unfold Ftu.endAborted
  cases h : ftu.read <;> simp [h]

/-- Whether the CLC carried the read or not, the sequence is aborted once (R38, R51). -/
theorem unplugLink_endAborted (d : Device) : d.unplugLink.ftu.endAborted = d.ftu.endAborted := by
  unfold Device.unplugLink
  dsimp only
  split
  · exact endAborted_idem d.ftu
  · rfl

/-- What an unplug in CLEARED leaves, the LTU apart: the coach stays, its plan is consumed with the masks, a running
sequence ends ABORTED and the presence timer starts (R38, R51, R135, R136). -/
def Device.departed (d : Device) (ltu : Ltu) : Device :=
  { d with
    clc := d.clc.unplugged
    ftu := { d.ftu.endAborted with refreshTimer := none }
    ltu := { ltu with channels := ltu.channels.map (Channel.withMask none) }
    cu := { d.cu with
      phase := .departing, retryHold := false, intent := .none, intentTimer := none, key := none,
      presence := d.presenceTimer, plan := none } }

theorem unplugPhase_cleared {d : Device} (p : d.cu.phase = .cleared) :
    d.unplugLink.unplugPhase = d.departed (d.ltu.onPhase .cleared .departing) := by
  have abort := unplugLink_endAborted d
  obtain ⟨link, -⟩ := unplugLink_eq d
  have phase : d.unplugLink.cu.phase = .cleared := by rw [link]; exact p
  unfold Device.unplugPhase
  rw [phase]
  dsimp only
  rw [setPhase_departing_eq, phase, abort, link]
  rfl

/-- A channel of a departed coach has no mask (R10, R11). -/
theorem departed_unmasked {d b : Device} {ltu : Ltu} (h : Stays (d.departed ltu) b) :
    ∀ c ∈ b.ltu.channels, c.masked = false := by
  intro c m
  obtain ⟨x, member, same⟩ := h.mem_lasting m
  obtain ⟨y, -, rfl⟩ := List.mem_map.mp member
  simp only [Channel.lasting, Channel.withMask, Prod.mk.injEq] at same
  obtain ⟨-, -, -, -, masked⟩ := same
  exact masked.symm

/-- UNPLUG closes on what the unplug leaves (R26, R134). -/
theorem exec_unplug {s : State} {t0 : Nat} (filter : s.dev.clc.plugFilter = some t0) (present : s.dev.clc.plug = true)
    (empty : s.dev.pins.plug = false) :
    exec .unplug s = .next { s with dev := close s.dev (s.dev.reach t0).unplugLink.unplugPhase } :=
  exec_next rfl ((if_pos ⟨present, empty⟩).trans (congrArg (s.dev.onExpiry · _) filter))

/-- Without a plug no coupling begins (R27). -/
theorem coupleNow_unplugged {d : Device} (n : d.clc.plug = false) : d.coupleNow = false := by
  simp [Device.coupleNow, n]

/-- Without an identity a following-up leaves no match (R6). -/
theorem close_noMatch {before d : Device} (h : (close before d).identity = none) :
    (close before d).cu.matchState = .none := by
  obtain ⟨⟨matching, -, -⟩, -⟩ := close_settled before d
  exact matching.trans ((evalMatch_eq_none_iff _).mpr (.inr (.inl h)))

/-! ### The unplug -/

/-- Settles O12: the phase an unplug leads to is VACANT or DEPARTING, in which the following-up leaves the bay, and with
the link DOWN and nothing pending it leaves the CLC as it is. -/
theorem unplugMovesThePhase : Obligations.UnplugMovesThePhase := by
  intro s t0 filter present empty
  have left := unplugPhase_leaves (s.dev.reach t0)
  have followed := followed_close s.dev (s.dev.reach t0).unplugLink.unplugPhase
  refine ⟨_, exec_unplug filter present empty, rfl, ?_⟩
  generalize (s.dev.reach t0).unplugLink.unplugPhase = after at left followed
  dsimp only
  generalize close s.dev after = b at followed
  have noCoach : after.cu.phase = .vacant ∨ after.cu.phase = .departing := by
    rw [left.phase]
    unfold Phase.afterUnplug
    split <;> simp
  have uncoupled : after.coupleNow = false := coupleNow_unplugged (by rw [left.clc]; rfl)
  obtain ⟨stays, link⟩ := followed.uncoupled uncoupled
  have clc : b.clc = after.clc := by
    apply link.nothing (readStarts_linkDown _ _) <;> rw [left.clc] <;> rfl
  obtain ⟨core, -⟩ := followed
  obtain ⟨alarms, config, -, announced, peers, stats, flight, lists⟩ := core.kept
  obtain ⟨stage, grant, -⟩ := core.lower
  obtain ⟨-, lanes⟩ := core.plan
  obtain ⟨energy, -⟩ := stays.energy
  obtain ⟨mode, image⟩ := left.sc
  rw [left.lu] at peers stats flight lists
  rw [left.hcu] at stage grant announced energy
  rw [clc, left.clc]
  exact ⟨core.clock.trans left.clock, (stays.phase noCoach).trans left.phase, alarms.trans left.alarms,
    rfl, rfl, rfl, rfl, rfl, rfl, rfl, rfl, rfl, rfl, rfl, (congrArg Sc.mode core.sc).trans mode, config.trans image,
    core.pins.trans left.pins, energy, announced, grant.elim (·.le) (·.le.trans (Nat.zero_le _)), stage,
    lanes.trans left.lanes, peers, stats, flight, lists⟩

/-- Settles O13: on the way to VACANT the coach is torn down and stays so (`TornDown`); what an unplug in CLEARED leaves
of the coach the following-up keeps (`Stays`), with the claim forced to 0 in DEPARTING. -/
theorem unplugLeavesOfTheCoach : Obligations.UnplugLeavesOfTheCoach := by
  refine ⟨fun s t0 filter present empty phase => ?_, fun s t0 filter present empty cleared => ?_⟩
  · have left := unplugPhase_leaves (s.dev.reach t0)
    obtain ⟨e, vacant, hp, cu⟩ := unplugPhase_vacant (d := s.dev.reach t0) phase
    refine ⟨_, exec_unplug filter present empty, ?_⟩
    rw [vacant] at left ⊢
    have torn := (TornDown.enter e).close (coupleNow_unplugged (by rw [left.clc]; rfl)) s.dev
    have matching := close_noMatch torn.identity
    obtain ⟨-, grant, stage⟩ := close_forced torn.claimForced
    obtain ⟨-, -, -, plan, lanes, -, probe, last⟩ := (FollowedCore.close s.dev (e.setPhase .vacant)).of_vacant
    have values := torn.hp
    rw [probe, last, hp] at values
    rw [cu] at plan lanes
    dsimp only
    generalize close s.dev _ = b at *
    obtain ⟨-, identity, ⟨status, temperature⟩, ftu, channels, -, window, ⟨heat, lamp, fault⟩, ⟨intent, key⟩, -⟩ := torn
    exact ⟨identity, ftu, channels, values, stage, grant, window, status, temperature, heat, lamp, fault, plan, lanes,
      matching, intent, key⟩
  · have x := exec_unplug filter present empty
    rw [unplugPhase_cleared (d := s.dev.reach t0) cleared] at x
    refine ⟨_, x, ?_⟩
    generalize (s.dev.reach t0).ltu.onPhase .cleared .departing = ltu
    have followed := followed_close s.dev ((s.dev.reach t0).departed ltu)
    obtain ⟨matching, -⟩ := close_noPlan (before := s.dev) (d := (s.dev.reach t0).departed ltu) rfl
    have forced := close_forced (before := s.dev) (d := (s.dev.reach t0).departed ltu)
    dsimp only
    generalize close s.dev _ = b at *
    have uncoupled : ((s.dev.reach t0).departed ltu).coupleNow = false := coupleNow_unplugged rfl
    have phase := (InPhase.of_noCoach followed (.inr rfl) uncoupled).phase
    obtain ⟨claim, grant, stage⟩ := forced (by rw [Device.claimForced, phase]; rfl)
    obtain ⟨stays, link⟩ := followed.uncoupled uncoupled
    obtain ⟨-, bay, -⟩ := followed
    have cu := bay.stays (nextPhase_none_noCoach (.inr rfl) uncoupled)
    obtain ⟨ftu, -⟩ := link.serves (readStarts_linkDown rfl _)
    obtain ⟨read, aborted⟩ := endAborted_ends s.dev.ftu
    have table := congrArg (List.map FaultEntry.record) (endAborted_table s.dev.ftu)
    rw [cu, ftu, stays.clc]
    exact ⟨stays.identity, rfl, rfl, rfl, rfl, departed_unmasked stays, matching, rfl, rfl, rfl, rfl, read, rfl, table,
      fun running => ⟨(aborted running).1, (Bool.or_false _).trans (aborted running).2⟩, claim, grant, stage⟩

/-! ### The timers -/

/-- A following-up starts no spacing timer (R126, R127). -/
theorem BayFollows.noSpacing {a b : Device} (h : BayFollows a b) (n : a.cu.spacing = none) : b.cu.spacing = none := by
  cases next : a.refresh.nextPhase with
  | none => rw [h.stays next]; exact n
  | some new =>
    obtain ⟨-, -, -, -, -, spacing⟩ := h.moves (by rw [next]; rfl)
    rw [spacing, n, ite_self]

/-- A settled bay that moves from CLEARING to CLEARED stays there: no revoking block stands, and M is within the release
lead (R131, R132). -/
theorem nextPhase_none_cleared {d : Device} (e : d.evaluated) (settled : d.phaseSettled)
    (clearing : d.cu.phase = .clearing) : (d.setPhase .cleared).refresh.nextPhase = none := by
  obtain ⟨phase, blocks, -, early⟩ := move_keeps (new := .cleared) e rfl (by rw [clearing]; rfl)
  unfold Device.phaseSettled at settled
  rw [clearing] at settled
  obtain ⟨revoking, lead⟩ := settled
  unfold Device.nextPhase
  rw [phase]
  dsimp only
  rw [blocks, early, noPlan_of_revoking revoking, revoking, (tooEarly_eq_false_iff d).mpr lead]
  rfl

/-- Settles O37: DEPARTING ends in VACANT, where the coach is torn down and stays so (`TornDown`) unless coupling
begins; CLEARED is entered with the spacing timer and kept (`nextPhase_none_cleared`); a flash toggles the lamp and
nothing else. -/
theorem clearanceTimersMoveTheBay : Obligations.ClearanceTimersMoveTheBay := by
  refine ⟨fun s t0 runs departing => ?_, fun s t0 runs clearing evaluated settled => ?_, fun s t0 runs => ?_,
    fun s t0 runs => ?_⟩
  · have x : exec .presenceTimerExpiry s = .next { s with dev := close s.dev ((s.dev.reach t0).setPhase .vacant) } :=
      exec_next rfl ((congrArg (s.dev.onExpiry · _) runs).trans (if_pos departing))
    have followed := followed_close s.dev ((s.dev.reach t0).setPhase .vacant)
    have couple : ((s.dev.reach t0).setPhase .vacant).coupleNow = (s.dev.clc.plug && s.dev.sc.mode.heats) := by
      rw [setPhase_vacant_eq]
      rfl
    have torn (away : (s.dev.clc.plug && s.dev.sc.mode.heats) = false) :=
      (TornDown.enter (s.dev.reach t0)).close (couple.trans away) s.dev
    have couples (here : (s.dev.clc.plug && s.dev.sc.mode.heats) = true) :=
      JustCoupling.close s.dev (couple.trans here)
    refine ⟨_, x, rfl, ?_⟩
    dsimp only
    generalize close s.dev _ = b at *
    obtain ⟨clock, pins, alarms, plan, lanes, peers, -⟩ := followed.1.of_vacant
    refine ⟨clock, fun n => ?_, fun plug heats => couples (by rw [plug, heats]; rfl), plan, lanes, alarms, peers, pins⟩
    have away : (s.dev.clc.plug && s.dev.sc.mode.heats) = false := by simpa using n
    obtain ⟨stays, -⟩ := followed.uncoupled (couple.trans away)
    obtain ⟨energy, -⟩ := stays.energy
    rw [setPhase_vacant_eq] at energy
    obtain ⟨phase, identity, ⟨status, temperature⟩, ftu, -, -, -, ⟨heat, lamp, fault⟩, -, presence⟩ := torn away
    exact ⟨phase, presence, identity, ftu, status, temperature, heat, lamp, fault, energy⟩
  · have x : exec .intentWindowExpiry s = .next { s with dev := close s.dev ((s.dev.reach t0).setPhase .cleared) } :=
      exec_next rfl ((congrArg (s.dev.onExpiry · _) runs).trans (if_pos clearing))
    have standing := (Unmoved.reach s.dev t0).toSameStanding
    have stands := nextPhase_none_cleared (standing.evaluated evaluated) (standing.phaseSettled settled) clearing
    have followed := followed_close s.dev ((s.dev.reach t0).setPhase .cleared)
    refine ⟨_, x, rfl, ?_⟩
    dsimp only
    generalize close s.dev _ = b at *
    rw [setPhase_cleared_eq] at stands followed
    obtain ⟨stays, -⟩ := followed.uncoupled (coupleNow_identified rfl)
    obtain ⟨core, bay, -⟩ := followed
    obtain ⟨alarms, -, -, -, peers, -⟩ := core.kept
    obtain ⟨energy, -⟩ := stays.energy
    rw [bay.stays stands]
    exact ⟨core.clock, rfl, rfl, rfl, rfl, rfl, rfl, stays.identity, alarms, peers, energy⟩
  · have x : exec .spacingTimerExpiry s = .next { s with dev := close s.dev _ } :=
      exec_next rfl (congrArg (s.dev.onExpiry · _) runs)
    exact completesWith_of_close x fun t ⟨_, bay, _⟩ => bay.noSpacing rfl
  · have next : some (t0 + 500000) = Timer.next s.dev.cu.flash Config.flashHalf := by rw [runs]; rfl
    refine exec_next rfl ?_
    rw [next]
    exact congrArg (s.dev.onExpiry · _) runs

end Sys2Proof.Machine
end

section
/-! SUPPORT. What the invariants of the Peer Table and of the silent modes look at (`LineStays`), and that every command
keeps them (`exec_keepsLine`). -/

namespace Sys2Proof.Machine

/-! ### Stations that stand alike -/

/-- What START and HALT hold still (R154, R158). -/
def Device.dormant (d : Device) : Prop :=
  d.sc.listenTimer = none ∧ d.sc.silence = none ∧ d.sc.conflictTimer = none ∧ d.sc.minuteTimer = none
    ∧ d.sc.rejoin = none ∧ d.hcu.claimTimer = none ∧ d.cu.phase = .vacant ∧ d.hcu.stage = 0 ∧ d.hcu.pull = .none
    ∧ d.hcu.monitor = .watching ∧ d.lu.sending = false

/-- What CONFLICT holds still (R150, R162, R166). -/
def Device.silenced (d : Device) : Prop :=
  d.lu.sending = false ∧ d.lu.flight = none ∧ d.lu.unbegun = false ∧ d.lu.lists = [] ∧ d.lu.reply = none
    ∧ d.lu.backoff = none ∧ d.sc.rejoin = none ∧ d.sc.listenTimer = none ∧ d.hcu.rejoinCap = none

theorem silentModes_iff (d : Device) : d.silentModes ↔
    (d.sc.mode = .start ∨ d.sc.mode = .halt → d.dormant) ∧ (d.sc.startStep ≠ .selfTest → d.sc.selfTest = none)
      ∧ (d.sc.mode = .halt → d.sc.startStep = .over) := Iff.rfl

theorem conflictSilent_iff (d : Device) : d.conflictSilent ↔ (d.sc.mode = .conflict → d.silenced) := Iff.rfl

theorem hears_eq_false_iff (m : Mode) : m.hears = false ↔ m = .start ∨ m = .halt := by cases m <;> simp [Mode.hears]

theorem ne_conflict_of_speaks {m : Mode} (h : m.speaks = true) : m ≠ .conflict := by rintro rfl; cases h

theorem hears_of_speaks {m : Mode} (h : m.speaks = true) : m.hears = true := by
  revert h
  cases m <;> decide

/-- `b` stands in the mode of `a`, at its step of START, with its configuration and its Peer Table. -/
structure StationStays (a b : Device) : Prop where
  mode : b.sc.mode = a.sc.mode
  startStep : b.sc.startStep = a.sc.startStep
  selfTest : b.sc.selfTest = a.sc.selfTest
  config : b.sc.config = a.sc.config
  peers : b.lu.peers = a.lu.peers

/-- And what a silent mode holds still it holds still. -/
structure LineStays (a b : Device) : Prop extends StationStays a b where
  dormant : a.sc.mode.hears = false → a.dormant → b.dormant
  silenced : a.sc.mode = .conflict → a.silenced → b.silenced

/-- What the silent modes look at in bay and heater. -/
def Device.heating (d : Device) : Phase × Nat × ShedPull × Monitor × Timer × Option Nat :=
  (d.cu.phase, d.hcu.stage, d.hcu.pull, d.hcu.monitor, d.hcu.claimTimer, d.hcu.rejoinCap)

namespace StationStays

theorem refl (d : Device) : StationStays d d := ⟨rfl, rfl, rfl, rfl, rfl⟩

theorem trans {a b c : Device} (h : StationStays a b) (k : StationStays b c) : StationStays a c :=
  ⟨k.mode.trans h.mode, k.startStep.trans h.startStep, k.selfTest.trans h.selfTest, k.config.trans h.config,
    k.peers.trans h.peers⟩

end StationStays

/-- A following-up asks for no NOTICE and starts no backoff where the station does not send (R148, R150). -/
theorem close_lu {before d : Device} (h : d.sc.mode.speaks = false) : (close before d).lu = d.lu := by
  have settled : d.settle.lu = d.lu := by
    unfold Device.settle Device.watchPower
    rw [showAspect_eq, followMonitor_eq, releasePull_eq, beginReadIfDue_eq]
    show (d.settlePhases 8).lampsDone.lu = d.lu
    rw [lampsDone_eq]
    exact settlePhases_lu d 8
  have mode : d.settle.sc.mode = d.sc.mode := by rw [(FollowedCore.settle d).sc]
  have marked : (before.markChanges d.settle).lu = d.lu := by
    rw [markChanges_eq, mode, h, Bool.false_or, ite_self, ← settled]
  have quiet : (before.markChanges d.settle).readyToSend = false := by
    unfold Device.readyToSend
    rw [(FollowedCore.markChanges d.settle before).sc, mode, h]
    rfl
  unfold close Device.seekLine
  rw [quiet]
  exact marked

namespace LineStays

theorem refl (d : Device) : LineStays d d :=
  { StationStays.refl d with dormant := fun _ => id, silenced := fun _ => id }

theorem trans {a b c : Device} (h : LineStays a b) (k : LineStays b c) : LineStays a c where
  toStationStays := h.toStationStays.trans k.toStationStays
  dormant m q := k.dormant (by rwa [h.mode]) (h.dormant m q)
  silenced m q := k.silenced (by rwa [h.mode]) (h.silenced m q)

theorem after {a b c : Device} (k : LineStays b c) (h : LineStays a b) : LineStays a c := h.trans k

/-- Alarm latches and sections apart, the same Station Control, the same frames in the Line Unit, the same of bay and
heater. -/
theorem same {a b : Device}
    (sc : b.sc = { a.sc with
      alarms := b.sc.alarms, phase := b.sc.phase, heat := b.sc.heat, lamp := b.sc.lamp, fault := b.sc.fault })
    (lu : b.lu = { a.lu with
      receiver := b.lu.receiver, quiet := b.lu.quiet, quietTimer := b.lu.quietTimer, lastNotice := b.lu.lastNotice,
      stats := b.lu.stats, lineEvent := b.lu.lineEvent })
    (heating : b.heating = a.heating) : LineStays a b := by
  simp only [Device.heating, Prod.mk.injEq] at heating
  obtain ⟨phase, stage, pull, monitor, claimTimer, rejoinCap⟩ := heating
  refine ⟨⟨?_, ?_, ?_, ?_, ?_⟩, fun _ => ?_, fun _ => ?_⟩
  · rw [sc]
  · rw [sc]
  · rw [sc]
  · rw [sc]
  · rw [lu]
  · unfold Device.dormant
    rw [phase, stage, pull, monitor, claimTimer, sc, lu]
    exact id
  · unfold Device.silenced
    rw [rejoinCap, sc, lu]
    exact id

/-- The silent modes say nothing of a station that drives an attempt. -/
theorem of_sending {a b : Device} (h : a.lu.sending = true) (k : StationStays a b) : LineStays a b where
  toStationStays := k
  dormant _ q := by
    obtain ⟨-, -, -, -, -, -, -, -, -, -, sending⟩ := q
    cases h.symm.trans sending
  silenced _ q := by
    obtain ⟨sending, -⟩ := q
    cases h.symm.trans sending

/-- The silent modes say nothing of a station that may send. -/
theorem of_speaks {a b : Device} (h : a.sc.mode.speaks = true) (k : StationStays a b) : LineStays a b where
  toStationStays := k
  dormant m := by cases m.symm.trans (hears_of_speaks h)
  silenced m := absurd m (ne_conflict_of_speaks h)

variable (d : Device)

theorem reach (t : Nat) : LineStays d (d.reach t) := .same rfl rfl rfl

/-- What the LTU's operations write lowers the stage at most. -/
theorem of_lamps {d e : Device} (h : LampSide d e) (l : e.hcu.stage ≤ d.hcu.stage) : LineStays d e := by
  have line : LineStays d { e with hcu := { e.hcu with stage := d.hcu.stage } } := by
    rw [h]
    exact .same rfl rfl rfl
  refine { line.toStationStays with dormant := fun m q => ?_, silenced := line.silenced }
  obtain ⟨t1, t2, t3, t4, t5, claimTimer, phase, stage, rest⟩ := line.dormant m q
  exact ⟨t1, t2, t3, t4, t5, claimTimer, phase, Nat.eq_zero_of_le_zero (l.trans_eq stage), rest⟩

theorem requestNotice : LineStays d d.requestNotice := by
  unfold Device.requestNotice
  split
  · next h => exact of_speaks h ⟨rfl, rfl, rfl, rfl, rfl⟩
  · exact refl d

theorem seekLine : LineStays d d.seekLine := by
  unfold Device.seekLine
  split
  · next h =>
    simp only [Device.readyToSend, Bool.and_eq_true] at h
    exact of_speaks h.1.1.1.1 ⟨rfl, rfl, rfl, rfl, rfl⟩
  · exact refl d

/-- Neither the station nor a mode that is silent is moved by a following-up. -/
theorem close (before d : Device) : LineStays d (Machine.close before d) := by
  have core := FollowedCore.close before d
  refine ⟨⟨?_, ?_, ?_, ?_, ?_⟩, fun m q => ?_, fun m q => ?_⟩
  · rw [core.sc]
  · rw [core.sc]
  · rw [core.sc]
  · rw [core.sc]
  · rw [core.lu]
  · obtain ⟨listen, silence, conflict, minute, rejoin, claim, phase, stage, pull, -, sending⟩ := q
    have couples : d.coupleNow = false := by
      have cold : d.sc.mode.heats = false := by rcases (hears_eq_false_iff _).1 m with k | k <;> rw [k] <;> rfl
      simp [Device.coupleNow, cold]
    have heater := close_heater d before
    have works : (Machine.close before d).monitorWorks = false := by
      unfold Device.monitorWorks
      rw [core.sc, m, Bool.and_false]
    refine ⟨by rw [core.sc, listen], by rw [core.sc, silence], by rw [core.sc, conflict], by rw [core.sc, minute],
      by rw [core.sc, rejoin], by rw [core.hcu, claim], ?_, Nat.eq_zero_of_le_zero (core.lower.1.trans_eq stage), ?_,
      ?_, by rw [core.lu, sending]⟩
    · exact ((Stays.close before d couples).phase (.inl phase)).trans phase
    · exact (heater.pull.1 (.inl pull)).1.trans pull
    · rw [heater.monitor.1, Device.monitorWanted, works]
      rfl
  · obtain ⟨l1, l2, l3, l4, l5, l6, rejoin, listen, cap⟩ := q
    have lu : (Machine.close before d).lu = d.lu := close_lu (by rw [m]; rfl)
    exact ⟨by rw [lu, l1], by rw [lu, l2], by rw [lu, l3], by rw [lu, l4], by rw [lu, l5], by rw [lu, l6],
      by rw [core.sc, rejoin], by rw [core.sc, listen], by rw [core.hcu, cap]⟩

/-! ### The operations of the units -/

theorem requestRead : LineStays d d.requestRead := by
  unfold Device.requestRead
  split <;> exact .same rfl rfl rfl

theorem offerRead (request : Request) : LineStays d (d.offerRead request) := by
  unfold Device.offerRead
  split <;> exact .same rfl rfl rfl

theorem exchangeFailed (request : Request) : LineStays d (d.exchangeFailed request) := by
  have latched : LineStays d d.latchLinkLost := by
    unfold Device.latchLinkLost
    split <;> exact .same rfl rfl rfl
  have taken (e : Device) : LineStays e e.takeBackRead := by
    unfold Device.takeBackRead
    split <;> exact .same rfl rfl rfl
  have handed (e : Device) : LineStays e (e.handFailure request) := by cases request <;> exact .same rfl rfl rfl
  have down (e : Device) : LineStays e (e.onClc fun clc => { clc with exchange := none, linkUp := false }) :=
    .same rfl rfl rfl
  exact latched.trans ((down _).trans ((taken _).trans (handed _)))

theorem attemptFailed (x : Exchange) (quiet : Bool) : LineStays d (d.attemptFailed x quiet) := by
  unfold Device.attemptFailed
  split
  · exact exchangeFailed d _
  · split <;> exact .same rfl rfl rfl

theorem frameEnds (quiet : Bool) : LineStays d (d.frameEnds quiet) := by
  unfold Device.frameEnds
  split
  · exact refl d
  · split
    · exact attemptFailed d _ _
    · unfold Device.lateFrameEnds
      split <;> exact .same rfl rfl rfl
    all_goals exact refl d

theorem takeReply (kind : ReplyKind) (ok : Bool) {result : Request → Device → Device}
    (h : ∀ r e, LineStays e (result r e)) : LineStays d (d.takeReply kind ok result) := by
  have taken : LineStays d d.exchangeOk := .same rfl rfl rfl
  unfold Device.takeReply
  split
  · exact refl d
  · split
    · exact taken.trans (h _ _)
    · exact frameEnds d _

theorem takeStatus (payload : List Byte) : LineStays d (d.takeStatus payload) := by
  refine trans (b := d.onClc fun clc =>
    { clc with lastStatus := some ⟨statusTc payload, d.clock⟩, tcState := .current }) (.same rfl rfl rfl) ?_
  unfold Device.takeStatus Device.compareCount
  repeat' split
  · exact refl _
  · exact refl _
  · exact (requestRead _).after (.same rfl rfl rfl)

theorem readOpened (available : Nat) : LineStays d (d.readOpened available) := by
  unfold Device.readOpened
  split
  · exact refl d
  · dsimp only
    split
    · exact (offerRead _ _).after (.same rfl rfl rfl)
    · exact .same rfl rfl rfl

theorem offerAgain : LineStays d d.offerAgain := by
  unfold Device.offerAgain
  split
  · exact refl d
  · exact offerRead _ _

theorem countBusy {next : Device → Device} (h : ∀ e, LineStays e (next e)) : LineStays d (d.countBusy next) := by
  unfold Device.countBusy
  dsimp only
  split
  · exact .same rfl rfl rfl
  · exact (h _).after (.same rfl rfl rfl)

theorem readBusy : LineStays d d.readBusy := by
  unfold Device.readBusy
  split
  · exact countBusy d fun e => .same rfl rfl rfl
  · exact refl d

theorem mergeRecords (records : List FaultRecord) : LineStays d (records.foldl Device.mergeRecord d) := by
  induction records generalizing d with
  | nil => exact refl d
  | cons r rest ih =>
    have merged : LineStays d (d.onFtu fun ftu => ftu.merge d.conf.restrictive r) := .same rfl rfl rfl
    exact (merged.trans (close d _)).trans (ih _)

theorem afterFrame (endFlag : Bool) : LineStays d (d.afterFrame endFlag) := by
  unfold Device.afterFrame
  repeat' split
  · exact refl d
  · exact .same rfl rfl rfl
  · exact offerRead _ _
  · exact (offerRead _ _).after (.same rfl rfl rfl)
  · exact .same rfl rfl rfl

theorem readRecords (payload : List Byte) : LineStays d (d.readRecords payload) := by
  have ftu (e : Device) (f : Ftu → Ftu) : LineStays e (e.onFtu f) := .same rfl rfl rfl
  unfold Device.readRecords
  split
  · exact refl d
  · split
    · unfold Device.acceptFrame
      exact (((afterFrame _ _).after (ftu _ _)).after (mergeRecords _ _)).after (ftu d _)
    · exact countBusy d offerAgain

theorem endMeasurement (num millivolts milliamps supply : Nat) :
    LineStays d (d.endMeasurement num millivolts milliamps supply) := by
  unfold Device.endMeasurement
  split
  · exact of_lamps (.dropPass d) (FollowedCore.dropPass d).lower.1
  · rw [enterJudgement_eq, nextMeasurement_ltu]
    exact .same rfl rfl rfl

/-- A move out of another phase than VACANT: START and HALT have no such phase. -/
theorem setPhase {new : Phase} (n : new ≠ .coupling) (p : d.cu.phase ≠ .vacant) : LineStays d (d.setPhase new) := by
  have identified (i : new.identified = true) : LineStays d { d.setPhase new with cu := d.cu } := by
    obtain ⟨-, -, -, hcu, -⟩ := setPhase_units d i
    refine .same ?_ ?_ ?_
    · rw [show ({ d.setPhase new with cu := d.cu } : Device).sc = d.sc from setPhase_sc d i]
    · rw [show ({ d.setPhase new with cu := d.cu } : Device).lu = d.lu from setPhase_lu d new]
    · unfold Device.heating
      rw [show ({ d.setPhase new with cu := d.cu } : Device).hcu = d.hcu from hcu]
  have elsewhere : LineStays d { d.setPhase new with cu := d.cu } := by
    cases new with
    | coupling => exact absurd rfl n
    | vacant => rw [setPhase_vacant_eq]; exact .same rfl rfl rfl
    | departing => rw [setPhase_departing_eq]; exact .same rfl rfl rfl
    | coupled | preparing | ready | clearing | cleared => exact identified rfl
  refine { elsewhere.toStationStays with dormant := fun _ q => ?_, silenced := elsewhere.silenced }
  obtain ⟨-, -, -, -, -, -, phase, -⟩ := q
  exact absurd phase p

theorem unplug : LineStays d d.unplugLink.unplugPhase := by
  have link : LineStays d d.unplugLink := by
    unfold Device.unplugLink
    dsimp only
    split <;> exact .same rfl rfl rfl
  have pulled (e : Device) : LineStays e (e.onAlarms fun a => { a with pullout := true }) := .same rfl rfl rfl
  refine link.trans ?_
  generalize d.unplugLink = e
  unfold Device.unplugPhase
  split
  · next p => exact setPhase e (by decide) (by simp [p])
  · next p => exact setPhase e (by decide) (by simp [p])
  · next p => exact (setPhase (e.onAlarms _) (by decide) (ne_of_eq_of_ne p (by decide))).after (pulled e)
  · next p => exact (setPhase (e.onAlarms _) (by decide) (ne_of_eq_of_ne p (by decide))).after (pulled e)
  · next p => exact (setPhase (e.onAlarms _) (by decide) (ne_of_eq_of_ne p (by decide))).after (pulled e)
  · next p => exact setPhase e (by decide) (by simp [p])
  · exact refl e
  · exact refl e

/-- A pull that begins where the monitor is timing: START and HALT have none. -/
theorem beginPull (pull : ShedPull) (m : d.hcu.monitor ≠ .watching) : LineStays d (d.beginPull pull) where
  toStationStays := ⟨rfl, rfl, rfl, rfl, rfl⟩
  dormant _ q := by
    obtain ⟨-, -, -, -, -, -, -, -, -, monitor, -⟩ := q
    exact absurd monitor m
  silenced _ := id

theorem overcurrent (m : d.hcu.monitor ≠ .watching) : LineStays d d.overcurrent :=
  trans (b := (d.onAlarms fun a => { a with overcurrent := true }).onHcu fun hcu => { hcu with overLockout := true })
    (.same rfl rfl rfl) (beginPull _ _ m)

theorem stuck (m : d.hcu.monitor ≠ .watching) : LineStays d (d.contactorFails.beginPull .contactor) :=
  trans (b := d.contactorFails) (.same rfl rfl rfl) (beginPull _ _ m)

theorem endPull : LineStays d d.endPull := by
  have ended (e : Device) :
      LineStays e (e.onHcu fun hcu =>
        { hcu with pull := .none, pullTimer := none, monitor := .watching, monitorTimer := none }) :=
    { StationStays.refl e with
      dormant := fun _ ⟨t1, t2, t3, t4, t5, claim, phase, stage, _, _, sending⟩ =>
        ⟨t1, t2, t3, t4, t5, claim, phase, stage, rfl, rfl, sending⟩
      silenced := fun _ => id }
  unfold Device.endPull
  split
  · exact trans (b := d.contactorFails) (.same rfl rfl rfl) (ended _)
  · exact ended d

/-! ### The Depot Line -/

theorem loseContest (p : d.cu.phase = .clearing) : LineStays d d.loseContest :=
  (setPhase d (by decide) (by simp [p])).trans (.same rfl rfl rfl)

theorem noticeDropped (snap : Snapshot) : LineStays d (d.noticeDropped snap) := by
  unfold Device.noticeDropped
  split
  · next h => exact loseContest d h.2.1
  · exact refl d

theorem contest (entry : PeerEntry) : LineStays d (d.contest entry) := by
  have cleared (e : Device) : LineStays e e.peerCleared := by
    have restarted : LineStays e (e.onCu fun cu => { cu with spacing := e.spacingTimer }) := .same rfl rfl rfl
    unfold Device.peerCleared
    dsimp only
    split
    · next p => exact restarted.trans (loseContest _ p)
    · exact restarted
  have beaten (e : Device) : LineStays e (if e.beatenBy entry then e.loseContest else e) := by
    split
    · next h => exact loseContest e (EnergyGoesOn.beatenBy_clearing e h)
    · exact refl e
  unfold Device.contest
  refine trans ?_ (beaten _)
  split
  · exact cleared d
  · exact refl d

theorem offerReply (n : Nat) : LineStays d (d.offerReply n) := by
  induction n generalizing d with
  | zero => exact refl d
  | succ n ih =>
    unfold Device.offerReply
    repeat' split
    · exact refl d
    · exact refl d
    · exact refl d
    · next m _ _ => exact of_speaks (by simpa using m) ⟨rfl, rfl, rfl, rfl, rfl⟩
    · next m _ _ => exact (ih _).after (of_speaks (by simpa using m) ⟨rfl, rfl, rfl, rfl, rfl⟩)

theorem listLeaves : LineStays d d.listLeaves := trans (b := d.lineEventNow) (.same rfl rfl rfl) (offerReply _ 3)

theorem startReply (subject : Subject) (requester start : Nat) :
    LineStays d (d.startReply subject requester start) := by
  unfold Device.startReply
  split
  · next m => exact (offerReply _ 3).after (of_speaks m ⟨rfl, rfl, rfl, rfl, rfl⟩)
  · exact {
      toStationStays := ⟨rfl, rfl, rfl, rfl, rfl⟩
      dormant := fun _ => id
      silenced := fun _ ⟨sending, flight, unbegun, lists, _, rest⟩ => ⟨sending, flight, unbegun, lists, rfl, rest⟩ }

theorem collided (flight : Flight) (h : d.lu.sending = true) :
    LineStays d (d.stopDriving.countCollision.failAttempt flight) := by
  refine of_sending h (StationStays.trans (b := d.stopDriving.countCollision) ⟨rfl, rfl, rfl, rfl, rfl⟩ ?_)
  generalize d.stopDriving.countCollision = e
  unfold Device.failAttempt
  split
  · exact ⟨rfl, rfl, rfl, rfl, rfl⟩
  · refine StationStays.trans (b := e.endFlight.countDropped) ⟨rfl, rfl, rfl, rfl, rfl⟩ ?_
    cases flight.content with
    | notice snap => exact (noticeDropped _ snap).toStationStays
    | list frame => exact (listLeaves _).toStationStays

theorem noticeCompleted (snap : Snapshot) (h : d.lu.sending = true) :
    LineStays d (((d.completeFlight.completeSections snap).announce snap.q).noticeShown snap) := by
  have announced (e : Device) : StationStays e (e.announce snap.q) := by
    unfold Device.announce Device.applyRaise
    repeat' split
    all_goals exact ⟨rfl, rfl, rfl, rfl, rfl⟩
  have shown (e : Device) : StationStays e (e.noticeShown snap) := by
    unfold Device.noticeShown
    repeat' split
    all_goals exact ⟨rfl, rfl, rfl, rfl, rfl⟩
  have done : StationStays d (d.completeFlight.completeSections snap) := ⟨rfl, rfl, rfl, rfl, rfl⟩
  exact of_sending h (done.trans ((announced _).trans (shown _)))

theorem listCompleted (h : d.lu.sending = true) : LineStays d d.completeFlight.listLeaves :=
  of_sending h (StationStays.trans (b := d.completeFlight) ⟨rfl, rfl, rfl, rfl, rfl⟩ (listLeaves _).toStationStays)

theorem attemptBegun (h : d.sc.mode.speaks = true) : LineStays d d.chooseFrame.beginAttempt := by
  have chosen : StationStays d d.chooseFrame := by
    unfold Device.chooseFrame
    repeat' split
    all_goals exact ⟨rfl, rfl, rfl, rfl, rfl⟩
  have begun (e : Device) : StationStays e e.beginAttempt := by
    unfold Device.beginAttempt
    split <;> exact ⟨rfl, rfl, rfl, rfl, rfl⟩
  exact of_speaks h (chosen.trans (begun _))

theorem startBit : LineStays d d.startBit := by
  unfold Device.startBit
  split
  · exact {
      toStationStays := ⟨rfl, rfl, rfl, rfl, rfl⟩
      dormant := fun _ => id
      silenced := fun _ ⟨sending, flight, unbegun, lists, reply, _, rest⟩ =>
        ⟨sending, flight, unbegun, lists, reply, rfl, rest⟩ }
  · exact .same rfl rfl rfl

/-- Line activity is taken in the modes that hear, and begins a rejoin period in ISOLATED alone (R143, R161). -/
theorem lineActivity (h : d.sc.mode.hears = true) : LineStays d d.lineActivity := by
  unfold Device.lineActivity
  dsimp only
  split
  · next k =>
    refine of_speaks ?_ ⟨rfl, rfl, rfl, rfl, rfl⟩
    rw [show d.sc.mode = .isolated from k.1]
    rfl
  · exact {
      toStationStays := ⟨rfl, rfl, rfl, rfl, rfl⟩
      dormant := fun m => by cases m.symm.trans h
      silenced := fun _ => id }

theorem touchPhase : LineStays d d.touchPhase :=
  trans (b := d.onSc fun sc => { sc with phase := sc.phase.touch }) (.same rfl rfl rfl) (requestNotice _)

theorem storePlan (plan : Plan) : LineStays d (d.storePlan plan) := by
  have planned : LineStays d (d.planned plan) := .same rfl rfl rfl
  rw [storePlan_eq]
  split
  · exact planned
  · exact planned.trans (touchPhase _)

theorem cancelPlan : LineStays d d.cancelPlan := by
  rw [cancelPlan_eq]
  split
  · exact refl d
  · exact trans (b := d.unplanned) (.same rfl rfl rfl) (touchPhase _)

theorem takeDispatch {sender dest : Nat} {broadcast : Bool} {accept : Device → Device}
    (h : ∀ e, LineStays e (accept e)) : LineStays d (d.takeDispatch sender dest broadcast accept) := by
  unfold Device.takeDispatch
  repeat' split
  · exact refl d
  · exact .same rfl rfl rfl
  · exact .same rfl rfl rfl
  · exact h d

end LineStays

end Sys2Proof.Machine
end

section
/-! SUPPORT. The loss of a contest (`ContestOver`) and the number conflict (`ConflictEntered`): what they leave alone in
the units that are not the contest's. -/

namespace Sys2Proof.Machine

/-! ### A contest that is over (R128, R129) -/

/-- `e` is `d` but for the bay, its lamps and its fault reading: the contest is over, or was none. -/
structure ContestOver (d e : Device) : Prop where
  clock : e.clock = d.clock
  pins : e.pins = d.pins
  sc : e.sc = d.sc
  hcu : e.hcu = d.hcu
  lu : e.lu = d.lu
  plan : e.cu.plan = d.cu.plan
  lanes : e.cu.holdLanes = d.cu.holdLanes

theorem ContestOver.refl (d : Device) : ContestOver d d := ⟨rfl, rfl, rfl, rfl, rfl, rfl, rfl⟩

theorem loseContest_over (d : Device) : ContestOver d d.loseContest := by
  have core := FollowedCore.setPhase d (new := .ready) (by decide)
  obtain ⟨-, -, -, hcu, -⟩ := setPhase_units d (new := .ready) rfl
  exact ⟨core.clock, core.pins, setPhase_sc d rfl, hcu, setPhase_lu d .ready, core.plan.1, core.plan.2⟩

theorem noticeDropped_over (d : Device) (snap : Snapshot) : ContestOver d (d.noticeDropped snap) := by
  unfold Device.noticeDropped
  split
  · exact loseContest_over d
  · exact .refl d

/-! ### A number conflict (R143, R150, R162) -/

/-- `e` is `d` in CONFLICT: the latch set, the timer started, nothing to send, no rejoin period (R150, R162, R166). -/
structure ConflictEntered (d e : Device) : Prop where
  clock : e.clock = d.clock
  pins : e.pins = d.pins
  sc : e.sc = { d.sc with
    mode := .conflict, alarms := { d.sc.alarms with numberConflict := true },
    conflictTimer := some (d.clock + 60000000), rejoin := none, listenTimer := none }
  hcu : e.hcu = { d.hcu with rejoinCap := none }
  lu : e.lu = { d.lu with
    backoff := none, sending := false, flight := none, unbegun := false, lists := [], reply := none,
    lineEvent := some d.clock }
  plan : e.cu.plan = d.cu.plan
  lanes : e.cu.holdLanes = d.cu.holdLanes

/-- The LU stops, and the NOTICE it abandons is dropped (R150). -/
theorem silence_over (d : Device) : ContestOver
    (d.onLu fun lu =>
      { lu with backoff := none, sending := false, flight := none, unbegun := false, lists := [], reply := none })
    d.silence := by
  unfold Device.silence
  dsimp only
  split
  · exact noticeDropped_over _ _
  · exact .refl _

/-- A station that may send enters CONFLICT. -/
theorem numberConflict_enters {d : Device} (h : d.sc.mode.speaks = true) : ConflictEntered d d.numberConflict := by
  have gone := silence_over d.lineEventNow
  unfold Device.numberConflict
  rw [if_pos h]
  unfold Device.enterConflict Device.latchConflict
  constructor
  · exact gone.clock
  · exact gone.pins
  · simp only [Device.onHcu_sc, Device.onSc_sc, gone.sc, Device.timer, gone.clock]
    rfl
  · simp only [Device.onHcu_hcu, Device.onSc_hcu, gone.hcu]
    rfl
  · exact gone.lu
  · exact gone.plan
  · exact gone.lanes

/-- A station in CONFLICT starts its timer again (R162). -/
theorem numberConflict_again {d : Device} (h : d.sc.mode.speaks = false) : d.numberConflict =
    { d with
      sc := { d.sc with
        alarms := { d.sc.alarms with numberConflict := true }, conflictTimer := some (d.clock + 60000000) },
      lu := { d.lu with lineEvent := some d.clock } } := by
  unfold Device.numberConflict
  rw [if_neg (by rw [h]; exact Bool.false_ne_true)]
  rfl

end Sys2Proof.Machine
end

section
/-! THEOREMS. Every step keeps the Peer Table in its order (`peerTableStaysInOrder`) and the silent modes silent
(`silentModesStaySilent`). -/

namespace Sys2Proof.Machine

/-! ### The Peer Table (R151, R152) -/

section Peers

variable {entry : PeerEntry} {peers : List PeerEntry}

theorem eq_or_mem_of_mem_putPeer {e : PeerEntry} (h : e ∈ putPeer entry peers) : e = entry ∨ e ∈ peers := by
  induction peers with
  | nil => exact .inl (List.mem_singleton.1 h)
  | cons f rest ih =>
    unfold putPeer at h
    split at h
    · rcases List.mem_cons.1 h with k | k
      · exact .inr (k ▸ List.mem_cons_self)
      · exact (ih k).imp_right (List.mem_cons_of_mem _)
    · split at h
      · exact (List.mem_cons.1 h).imp_right (List.mem_cons_of_mem _)
      · exact List.mem_cons.1 h

/-- An entry takes its place in station number order (R151). -/
theorem pairwise_putPeer (h : peers.Pairwise fun e f => e.station < f.station) :
    (putPeer entry peers).Pairwise fun e f => e.station < f.station := by
  induction peers with
  | nil => exact List.pairwise_singleton _ _
  | cons f rest ih =>
    obtain ⟨above, ordered⟩ := List.pairwise_cons.1 h
    unfold putPeer
    split
    · next l =>
      refine List.pairwise_cons.2 ⟨fun e m => ?_, ih ordered⟩
      rcases eq_or_mem_of_mem_putPeer m with rfl | m
      · exact l
      · exact above e m
    · split
      · next eq => exact List.pairwise_cons.2 ⟨fun e m => eq ▸ above e m, ordered⟩
      · refine List.pairwise_cons.2 ⟨fun e m => ?_, h⟩
        rcases List.mem_cons.1 m with rfl | m
        · omega
        · have := above e m
          omega

end Peers

/-! ### A frame on its way -/

theorem sendingNotice_sends {lu : Lu} {snap : Snapshot} (h : lu.sendingNotice = some snap) : lu.sending = true := by
  unfold Lu.sendingNotice at h
  split at h
  · assumption
  · cases h

theorem sendingList_sends {lu : Lu} (h : lu.sendingList = true) : lu.sending = true := by
  unfold Lu.sendingList at h
  split at h
  · assumption
  · cases h

/-! ### What every command keeps -/

/-- The order of the Peer Table and the silence of START, HALT and CONFLICT go from `a` to `b`. -/
structure KeepsLine (a b : Device) : Prop where
  peers : a.peersOk → b.peersOk
  silent : a.silentModes → b.silentModes
  conflict : a.conflictSilent → b.conflictSilent

theorem LineStays.keeps {a b : Device} (h : LineStays a b) : KeepsLine a b where
  peers := by
    unfold Device.peersOk Device.conf
    rw [h.mode, h.config, h.peers]
    exact id
  silent := by
    simp only [silentModes_iff, ← hears_eq_false_iff, h.mode, h.startStep, h.selfTest]
    exact fun ⟨dormant, rest⟩ => ⟨fun m => h.dormant m (dormant m), rest⟩
  conflict := by
    simp only [conflictSilent_iff, h.mode]
    exact fun silenced m => h.silenced m (silenced m)

namespace KeepsLine

theorem refl (d : Device) : KeepsLine d d := ⟨id, id, id⟩

theorem trans {a b c : Device} (h : KeepsLine a b) (k : KeepsLine b c) : KeepsLine a c :=
  ⟨k.peers ∘ h.peers, k.silent ∘ h.silent, k.conflict ∘ h.conflict⟩

theorem ite {p : Prop} [Decidable p] {a b c : Device} (h : p → KeepsLine a b) (k : ¬ p → KeepsLine a c) :
    KeepsLine a (if p then b else c) := by
  split
  · exact h ‹_›
  · exact k ‹_›

/-- The device of a meaning that answers `t`. -/
theorem of_did {s t : State} {f : Device → Device} (h : s.did f = .next t) (k : KeepsLine s.dev (f s.dev)) :
    KeepsLine s.dev t.dev := by
  cases h
  exact k

theorem closed {a b : Device} (h : KeepsLine a b) (before : Device) : KeepsLine a (close before b) :=
  h.trans (LineStays.close before b).keeps

/-- The silent modes say nothing of a station that comes to a mode in which it may send. -/
theorem of_speaks {a b : Device} (h : b.sc.mode.speaks = true) (start : b.sc.startStep = a.sc.startStep)
    (test : b.sc.selfTest = a.sc.selfTest) (config : b.sc.config = a.sc.config) (peers : b.lu.peers = a.lu.peers) :
    KeepsLine a b where
  peers q := by
    obtain ⟨order, range, -⟩ := q
    refine ⟨by rw [peers]; exact order, ?_, fun m => ?_⟩
    · unfold Device.conf
      rw [peers, config]
      exact range
    · rw [m] at h
      cases h
  silent q := by
    obtain ⟨-, selfTest, -⟩ := q
    refine ⟨fun m => ?_, by rw [start, test]; exact selfTest, fun m => ?_⟩
    · rw [← hears_eq_false_iff, hears_of_speaks h] at m
      cases m
    · rw [m] at h
      cases h
  conflict _ m := absurd m (ne_conflict_of_speaks h)

/-- Reset puts the station in START, with no table and no test (R154). -/
theorem reset (a : Device) (clock : Nat) (pins : Pins) (start : StartStep) (plug shed : Timer) :
    KeepsLine a (Device.resetBlocks clock pins start plug shed) where
  peers _ := ⟨List.Pairwise.nil, fun _ m => absurd m List.not_mem_nil, fun _ => rfl⟩
  silent _ := ⟨fun _ => ⟨rfl, rfl, rfl, rfl, rfl, rfl, rfl, rfl, rfl, rfl, rfl⟩, fun _ => rfl, fun m => by cases m⟩
  conflict _ m := by cases m

variable (d : Device)

/-- The expiry of a timer moves the clock, which none of it looks at. -/
theorem expiry (timer : Timer) {f : Device → Device} (h : ∀ t, timer = some t → KeepsLine d (f (d.reach t))) :
    KeepsLine d (d.onExpiry timer f) := by
  cases timer with
  | none => exact refl d
  | some t => exact h t rfl

/-- The configuration is read in START, where no peer is known yet (R155). -/
theorem configurationRead (answer : Option (List Byte)) (m : d.sc.mode = .start) (r : d.sc.startStep = .reading) :
    KeepsLine d (d.configurationRead answer) := by
  have halted : KeepsLine d d.enterHalt := {
    peers := fun ⟨order, range, _⟩ => ⟨order, range, fun k => by cases k⟩
    silent := fun ⟨dormant, test, _⟩ =>
      ⟨fun _ => dormant (.inl m), fun _ => test (by rw [r]; decide), fun _ => rfl⟩
    conflict := fun _ k => by cases k }
  have accepted (image : List Byte) : KeepsLine d (d.acceptImage image) := {
    peers := fun ⟨order, _, empty⟩ => by
      refine ⟨order, ?_, fun _ => empty m⟩
      rw [show (d.acceptImage image).lu.peers = [] from empty m]
      exact fun _ k => absurd k List.not_mem_nil
    silent := fun ⟨dormant, _, _⟩ =>
      ⟨fun _ => dormant (.inl m), fun k => absurd rfl k, fun k => by cases m.symm.trans k⟩
    conflict := fun _ k => by cases m.symm.trans k }
  unfold Device.configurationRead
  split
  · exact halted
  · split
    · exact accepted _
    · exact halted

theorem endSelfTest (lineHigh : Bool) : KeepsLine d (d.endSelfTest lineHigh) where
  peers := id
  silent := fun ⟨dormant, _, _⟩ => ⟨dormant, fun _ => rfl, fun _ => rfl⟩
  conflict := id

/-- LISTEN is a mode in which the station may send. -/
theorem listenEntry (before : Device) {a b : Device} (h : KeepsLine a b) : KeepsLine a (before.listenEntry b) := by
  have entered : KeepsLine b b.toListen := by
    unfold Device.toListen
    dsimp only
    split <;> exact of_speaks rfl rfl rfl rfl rfl
  have initial (e : Device) : LineStays e (e.onSc fun sc => { sc with phase := ⟨.initial, false⟩ }) := .same rfl rfl rfl
  exact ((h.trans entered).closed before).trans
    ((initial _).trans ((LineStays.requestNotice _).trans (LineStays.seekLine _))).keeps

/-- A claim tick falls in neither START nor HALT, and in CONFLICT it asks for no NOTICE and ends no rejoin period. -/
theorem ticked (t : Nat) (probe : Int) (due : d.hcu.claimTimer.isSome = true) : KeepsLine d (d.ticked t probe) := by
  have ended (h : d.rejoinEnds = true) : (d.ticked t probe).sc.mode = .run := if_pos h
  have kept (h : d.rejoinEnds = false) : (d.ticked t probe).sc.mode = d.sc.mode :=
    if_neg (by rw [h]; exact Bool.false_ne_true)
  cases h : d.rejoinEnds with
  | true => exact of_speaks (by rw [ended h]; rfl) rfl rfl rfl rfl
  | false =>
    refine LineStays.keeps ⟨⟨kept h, rfl, rfl, rfl, rfl⟩, ?_, ?_⟩
    · intro _ q
      obtain ⟨-, -, -, -, -, claim, -⟩ := q
      rw [claim] at due
      cases due
    · intro m q
      obtain ⟨sending, flight, unbegun, lists, reply, backoff, rejoin, listen, cap⟩ := q
      refine ⟨sending, flight, ?_, lists, reply, backoff, ?_, listen, ?_⟩
      · show (d.lu.unbegun || (d.ticked t probe).sc.mode.speaks) = false
        rw [unbegun, kept h, m]
        rfl
      · show (if d.rejoinEnds = true then none else d.sc.rejoin.map (· - 1)) = none
        rw [rejoin, Option.map_none, ite_self]
      · rw [ticked_hcu]
        show (if d.rejoinEnds = true then none else d.hcu.rejoinCap) = none
        rw [cap, ite_self]

/-- The LU stops at the entry to CONFLICT; the contest that its NOTICE was to begin goes with it (R150, R162). -/
theorem numberConflict (h : d.sc.mode.hears = true) : KeepsLine d d.numberConflict := by
  cases m : d.sc.mode.speaks with
  | true =>
    have entered := numberConflict_enters m
    refine ⟨fun ⟨order, range, _⟩ => ⟨?_, ?_, fun k => ?_⟩,
      fun ⟨_, test, _⟩ => ⟨fun k => ?_, ?_, fun k => ?_⟩, fun _ _ => ?_⟩
    · rw [entered.lu]
      exact order
    · unfold Device.conf
      rw [entered.lu, entered.sc]
      exact range
    · rw [entered.sc] at k
      cases k
    · rw [entered.sc] at k
      rcases k with k | k <;> cases k
    · rw [entered.sc]
      exact test
    · rw [entered.sc] at k
      cases k
    · rw [entered.lu, entered.sc, entered.hcu]
      exact ⟨rfl, rfl, rfl, rfl, rfl, rfl, rfl, rfl, rfl⟩
  | false =>
    rw [numberConflict_again m]
    exact LineStays.keeps
      ⟨⟨rfl, rfl, rfl, rfl, rfl⟩, fun k => absurd (k.symm.trans h) Bool.false_ne_true, fun _ => id⟩

/-- A NOTICE of another node enters its number alone (R151). -/
theorem takeNotice {station : Nat} (payload : List Byte) (h : d.sc.mode.hears = true) (l : 1 ≤ station)
    (u : station ≤ 63) (n : station ≠ d.conf.station) : KeepsLine d (d.takeNotice station payload) := by
  have put (entry : PeerEntry) (s : entry.station = station) : KeepsLine d (d.putNotice entry) := {
    peers := fun ⟨order, range, _⟩ => by
      refine ⟨pairwise_putPeer order, fun e m => ?_, fun m => ?_⟩
      · rcases eq_or_mem_of_mem_putPeer m with rfl | m
        · rw [s]
          exact ⟨l, u, n⟩
        · exact range e m
      · rw [show d.sc.mode = .start from m] at h
        cases h
    silent := id
    conflict := id }
  unfold Device.takeNotice
  split
  · exact ((put _ rfl).closed d).trans (LineStays.contest _ _).keeps
  · exact LineStays.keeps (.same rfl rfl rfl)

/-- An entry that goes leaves the others in their order (R152). -/
theorem dropPeer (station : Nat) :
    KeepsLine d (d.onLu fun lu => { lu with peers := Machine.dropPeer station lu.peers }) where
  peers := fun ⟨order, range, empty⟩ =>
    ⟨order.filter _, fun e m => range e (List.mem_of_mem_filter m), fun m => by
      show Machine.dropPeer station d.lu.peers = []
      rw [empty m]
      rfl⟩
  silent := id
  conflict := id

/-! ### Frames of other nodes -/

/-- A frame is received in the modes that hear; its own number apart, the sender is another station. -/
theorem takeFrame {sender dest : Byte} {ok : Bool} {use : Device → Device} (h : d.sc.mode.hears = true)
    (k : ∀ e : Device, e.sc.mode.hears = true → 1 ≤ sender.toNat → sender.toNat ≤ 63 → sender.toNat ≠ e.conf.station →
      KeepsLine e (use e)) : KeepsLine d (d.takeFrame sender dest ok use) := by
  have left : LineStays d (d.leaveFrame .idle) := .same rfl rfl rfl
  have active := left.trans (LineStays.lineActivity (d.leaveFrame .idle) h)
  unfold Device.takeFrame
  refine ite (fun _ => LineStays.keeps (.same rfl rfl rfl)) fun valid => ite (fun _ => ?_) fun other => ?_
  · exact (left.keeps.trans (numberConflict _ h)).closed d
  · simp only [addressesOk, Bool.not_eq_true', Bool.not_eq_false, Bool.and_eq_true, decide_eq_true_eq] at valid
    obtain ⟨⟨⟨l, u⟩, -⟩, -⟩ := valid
    refine (active.keeps.trans (k _ ?_ l u ?_)).closed d
    · rw [active.mode, h]
    · unfold Device.conf
      rw [active.config]
      exact other

theorem receiveFrame {sender dest : Byte} {ok : Bool} {use : Device → Device}
    (k : ∀ e : Device, e.sc.mode.hears = true → 1 ≤ sender.toNat → sender.toNat ≤ 63 → sender.toNat ≠ e.conf.station →
      KeepsLine e (use e)) : KeepsLine d (d.receiveFrame sender dest ok use) := by
  refine ite (fun heard => takeFrame d ?_ k) fun _ => refl d
  simp only [Device.receives, Device.conflictBesideQuery, Device.atLineEvent, Bool.or_eq_true, Bool.and_eq_true]
    at heard
  tauto

theorem dispatchFrame {sender dest : Byte} {ok broadcast : Bool} {accept : Device → Device}
    (k : ∀ e, LineStays e (accept e)) : KeepsLine d (d.dispatchFrame sender dest ok broadcast accept) :=
  receiveFrame d fun e _ _ _ _ => (LineStays.takeDispatch e k).keeps

theorem queryFrame {sender dest : Byte} {accept : Device → Device} (k : ∀ e, LineStays e (accept e)) :
    KeepsLine d (d.queryFrame sender dest accept) := by
  refine ite (fun heard => takeFrame d ?_ fun e _ _ _ _ => (LineStays.takeDispatch e k).keeps) fun _ => refl d
  simp only [Device.receives, Device.queryBesideEvent, Device.atLineEvent, Bool.or_eq_true, Bool.and_eq_true] at heard
  tauto

end KeepsLine

/-- Every command keeps the order of the Peer Table and the silence of START, HALT and CONFLICT. -/
theorem exec_keepsLine (c : Instr) {s t : State} (h : exec c s = .next t) : KeepsLine s.dev t.dev := by
  have stays {e : Device} (k : LineStays s.dev e) : KeepsLine s.dev e := k.keeps
  have closes {before e : Device} (k : LineStays s.dev e) : KeepsLine s.dev (close before e) := k.keeps.closed before
  have enters {before e : Device} (m : e.sc.mode.speaks = true) (start : e.sc.startStep = s.dev.sc.startStep)
      (test : e.sc.selfTest = s.dev.sc.selfTest) (config : e.sc.config = s.dev.sc.config)
      (peers : e.lu.peers = s.dev.lu.peers) : KeepsLine s.dev (close before e) :=
    (KeepsLine.of_speaks m start test config peers).closed before
  have same : KeepsLine s.dev s.dev := .refl _
  cases c with
  | powerOn => exact .of_did h (.ite (fun _ => .reset ..) fun _ => .reset ..)
  | resetAssert => exact .of_did h (.reset ..)
  | resetRelease => exact .of_did h (.ite (fun _ => same) fun _ => .reset ..)
  | configurationRead answer =>
    exact .of_did h (.ite (fun k => (KeepsLine.configurationRead _ answer k.1 k.2).closed _) fun _ => same)
  | shedSelfTestEnd lineHigh =>
    exact .of_did h (.expiry _ _ fun t _ =>
      .listenEntry s.dev ((stays (.reach _ t)).trans (KeepsLine.endSelfTest (s.dev.reach t) lineHigh)))
  | listenTimerExpiry => exact .of_did h (.expiry _ _ fun t _ => enters rfl rfl rfl rfl rfl)
  | silenceTimeout =>
    exact .of_did h (.expiry _ _ fun t _ => .ite
      (fun _ => enters rfl rfl rfl rfl rfl) fun _ => stays (.reach _ t))
  | rejoinPeriodEnd =>
    exact .of_did h (.ite
      (fun _ => .expiry _ _ fun t _ => enters rfl rfl rfl rfl rfl) fun _ => same)
  | conflictQuietExpiry => exact .of_did h (.expiry _ _ fun t _ => .listenEntry s.dev (stays (.reach _ t)))
  | minuteTick =>
    refine .of_did h (.expiry _ _ fun t due => closes ⟨⟨rfl, rfl, rfl, rfl, rfl⟩, fun _ q => ?_, fun _ => id⟩)
    obtain ⟨-, -, -, minute, -⟩ := q
    cases due.symm.trans minute
  | claimTick probe =>
    cases timer : s.dev.hcu.claimTimer with
    | none =>
      refine .of_did h ?_
      rw [timer]
      exact same
    | some due =>
      cases (exec_ticked due probe timer).symm.trans h
      exact (KeepsLine.ticked _ due probe (by rw [timer]; rfl)).closed _
  | plugPinChange seated => exact .of_did h (.ite (fun _ => same) fun _ => stays (.same rfl rfl rfl))
  | plugPresent => exact .of_did h (.ite (fun _ => .expiry _ _ fun t _ => closes (.same rfl rfl rfl)) fun _ => same)
  | unplug =>
    exact .of_did h (.ite
      (fun _ => .expiry _ _ fun t _ => closes ((LineStays.reach _ t).trans (.unplug _))) fun _ => same)
  | requestSent =>
    refine .of_did h ?_
    split
    · exact same
    · exact stays (.same rfl rfl rfl)
  | attemptStart =>
    refine .of_did h ?_
    split
    · exact same
    · exact .expiry _ _ fun t _ => stays (.same rfl rfl rfl)
  | replyTimeout =>
    refine .of_did h ?_
    split
    · exact same
    · exact .expiry _ _ fun t _ => closes ((LineStays.reach _ t).trans (.attemptFailed _ _ _))
  | replyGapTimeout => exact .of_did h (closes (.frameEnds _ _))
  | replyFrameDiscarded found => exact .of_did h (closes (.frameEnds _ _))
  | identity payload => exact .of_did h (closes (.takeReply _ _ _ fun _ _ => .same rfl rfl rfl))
  | profile payload =>
    refine .of_did h (closes (.takeReply _ _ _ fun _ e => ?_))
    split <;> exact .same rfl rfl rfl
  | identificationRetryExpiry => exact .of_did h (.expiry _ _ fun t _ => closes (.same rfl rfl rfl))
  | pollDue => exact .of_did h (.expiry _ _ fun t _ => closes (.same rfl rfl rfl))
  | status payload => exact .of_did h (closes (.takeReply _ _ _ fun _ _ => .takeStatus _ _))
  | tcHeld =>
    refine .of_did h ?_
    split
    · exact closes (.same rfl rfl rfl)
    · exact same
  | tcStale =>
    refine .of_did h ?_
    split
    · exact closes (.same rfl rfl rfl)
    · exact closes (.same rfl rfl rfl)
    · exact same
  | opened payload => exact .of_did h (closes (.takeReply _ _ _ fun _ _ => .readOpened _ _))
  | records payload => exact .of_did h (closes (.takeReply _ _ _ fun _ _ => .readRecords _ _))
  | busy => exact .of_did h (closes (.takeReply _ _ _ fun _ _ => .readBusy _))
  | busyRetryExpiry =>
    exact .of_did h (.expiry _ _ fun t _ => closes ((LineStays.offerAgain _).after (.same rfl rfl rfl)))
  | faultRefreshExpiry =>
    exact .of_did h (.expiry _ _ fun t _ => closes ((LineStays.requestRead _).after (.same rfl rfl rfl)))
  | faultPendingAgeExpiry => exact .of_did h (.expiry _ _ fun t _ => closes (.same rfl rfl rfl))
  | measurementEnd millivolts milliamps supply =>
    refine .of_did h ?_
    split
    · exact same
    · exact .expiry _ _ fun t _ => closes ((LineStays.reach _ t).trans (.endMeasurement _ _ _ _ _))
  | retestTimerExpiry => exact .of_did h (.expiry _ _ fun t _ => closes (.same rfl rfl rfl))
  | fullPassTimerExpiry => exact .of_did h (.expiry _ _ fun t _ => closes (.same rfl rfl rfl))
  | fullPassAgeExpiry => exact .of_did h (.expiry _ _ fun t _ => closes (.same rfl rfl rfl))
  | signalPassTimer => exact .of_did h (.expiry _ _ fun t _ => closes (.same rfl rfl rfl))
  | windowSettlingExpiry =>
    exact .of_did h (.expiry _ _ fun t _ => closes
      ((LineStays.of_lamps (.limitEffective _) (FollowedCore.limitEffective _).lower.1).after (.same rfl rfl rfl)))
  | shedPinChange high => exact .of_did h (.ite (fun _ => same) fun _ => stays (.same rfl rfl rfl))
  | shedAsserted => exact .of_did h (.ite (fun _ => .expiry _ _ fun t _ => closes (.same rfl rfl rfl)) fun _ => same)
  | shedReleased => exact .of_did h (.ite (fun _ => .expiry _ _ fun t _ => closes (.same rfl rfl rfl)) fun _ => same)
  | holdOffExpiry => exact .of_did h (.expiry _ _ fun t _ => closes (.same rfl rfl rfl))
  | measuredPowerChange watts => exact .of_did h (closes (.same rfl rfl rfl))
  | overcurrentTimingExpiry =>
    exact .of_did h (.ite (fun timing => .expiry _ _ fun t _ => closes
      ((LineStays.reach _ t).trans (.overcurrent _ (ne_of_eq_of_ne timing (by decide))))) fun _ => same)
  | stuckTimingExpiry =>
    exact .of_did h (.ite (fun timing => .expiry _ _ fun t _ => closes
      ((LineStays.reach _ t).trans (.stuck _ (ne_of_eq_of_ne timing (by decide))))) fun _ => same)
  | shedPullExpiry => exact .of_did h (.expiry _ _ fun t _ => closes ((LineStays.reach _ t).trans (.endPull _)))
  | presenceChange vehicle =>
    refine .of_did h (.ite (fun _ => same) fun _ => stays ?_)
    unfold Device.followPresence
    split <;> exact .same rfl rfl rfl
  | presenceTimerExpiry =>
    exact .of_did h (.expiry _ _ fun t _ => .ite (fun p => closes
      ((LineStays.reach _ t).trans (.setPhase _ (by decide) (ne_of_eq_of_ne p (by decide))))) fun _ => same)
  | intentWindowExpiry =>
    exact .of_did h (.expiry _ _ fun t _ => .ite (fun p => closes
      ((LineStays.reach _ t).trans (.setPhase _ (by decide) (ne_of_eq_of_ne p (by decide))))) fun _ => same)
  | spacingTimerExpiry => exact .of_did h (.expiry _ _ fun t _ => closes (.same rfl rfl rfl))
  | aspectFlash => exact .of_did h (.expiry _ _ fun t _ => stays (.same rfl rfl rfl))
  | lineQuiet =>
    exact .of_did h (.ite
      (fun _ => .expiry _ _ fun t _ => stays ((LineStays.seekLine _).after (.same rfl rfl rfl))) fun _ => same)
  | backoffExpiry =>
    refine .of_did h (.ite (fun k => .expiry _ _ fun t _ => stays ((LineStays.reach _ t).trans ?_)) fun _ => same)
    exact .attemptBegun _ (Bool.and_eq_true_iff.1 k).1
  | noticeHoldbackExpiry =>
    refine .of_did h ?_
    split
    · exact same
    · exact stays ((LineStays.reach _ _).trans (.seekLine _))
  | collision =>
    refine .of_did h ?_
    split
    · next flight sending _ => exact closes (.collided _ flight sending)
    · exact same
  | noticeCompletion =>
    refine .of_did h ?_
    split
    · exact same
    · next snap sent => exact closes (.noticeCompleted _ snap (sendingNotice_sends sent))
  | listCompletion =>
    exact .of_did h (.ite (fun sent => closes (.listCompleted _ (sendingList_sends sent))) fun _ => same)
  | lineGapTimeout => exact .of_did h (.ite (fun _ => stays (.same rfl rfl rfl)) fun _ => same)
  | frameFormatError found => exact .of_did h (.ite (fun _ => stays (.same rfl rfl rfl)) fun _ => same)
  | noticeReceived sender dest payload =>
    exact .of_did h (.receiveFrame _ fun e hears l u n => .takeNotice e payload hears l u n)
  | plan sender dest payload => exact .of_did h (.dispatchFrame _ fun e => .storePlan e _)
  | planCancel sender dest payload => exact .of_did h (.dispatchFrame _ LineStays.cancelPlan)
  | hold sender dest payload => exact .of_did h (.dispatchFrame _ fun _ => .same rfl rfl rfl)
  | acknowledge sender dest payload => exact .of_did h (.dispatchFrame _ fun _ => .same rfl rfl rfl)
  | queryLamps sender dest start => exact .of_did h (.queryFrame _ fun e => .startReply e _ _ _)
  | queryFaults sender dest start => exact .of_did h (.queryFrame _ fun e => .startReply e _ _ _)
  | queryHeat sender dest start => exact .of_did h (.queryFrame _ fun e => .startReply e _ _ _)
  | queryLine sender dest start => exact .of_did h (.queryFrame _ fun e => .startReply e _ _ _)
  | queryUnknownSubject sender dest subject start => exact .of_did h (.queryFrame _ fun _ => .same rfl rfl rfl)
  | listReceived sender dest => exact .of_did h (.receiveFrame _ fun e _ _ _ _ => .refl e)
  | peerEntryExpiry station =>
    refine .of_did h ?_
    split
    · exact same
    · next e _ =>
      exact ((LineStays.reach s.dev (e.heard + Config.peerExpiry)).keeps.trans (KeepsLine.dropPeer _ station)).closed _
  | lineStartBit => exact .of_did h (.ite (fun _ => stays (.startBit _)) fun _ => same)
  | replyFrameBegin =>
    refine .of_did h ?_
    split
    · exact same
    · unfold Device.leadHeard
      split <;> exact stays (.same rfl rfl rfl)

/-! ### Every step -/

theorem step_keepsLine {s t : State} (h : step s = .next t) : KeepsLine s.dev t.dev := by
  unfold step at h
  split at h
  · cases h
    exact LineStays.keeps (.same rfl rfl rfl)
  · next c rest _ => exact exec_keepsLine c (s := s.withPending rest) h

/-- Settles O54: entries are made in their place for other stations than the own (`KeepsLine.takeNotice`), and no other
command than a reset or an expiry touches the table (`exec_keepsLine`). -/
theorem peerTableStaysInOrder : Obligations.PeerTableStaysInOrder := fun _ _ order h => (step_keepsLine h).peers order

/-- Settles O56: no command gives START, HALT or CONFLICT anything to do (`LineStays`), and CONFLICT is entered with
nothing to send (`ConflictEntered`). -/
theorem silentModesStaySilent : Obligations.SilentModesStaySilent := fun _ _ h =>
  ⟨(step_keepsLine h).silent, (step_keepsLine h).conflict⟩

end Sys2Proof.Machine
end

section
/-! THEOREMS. The access to the line: quiet, start bit, hold-back, gap and bad frame (`lineEventsMoveTheReceiver`), and
the attempt at the end of the backoff (`backoffEndsInAnAttempt`). -/

namespace Sys2Proof.Machine

/-! ### The receiver and the backoff (R141, R142, R144) -/

/-- The access procedure (R144). -/
theorem seekLine_eq (d : Device) : d.seekLine =
    { d with
      lu := { d.lu with
        backoff :=
          if d.readyToSend = true ∧ d.lu.quiet = true ∧ d.lu.backoff = none then
            some (d.clock + (d.conf.station + 5 * (d.lu.flight.map Flight.failed).getD 0) % 16 * 64)
          else d.lu.backoff } } := by
  unfold Device.seekLine
  simp only [Bool.and_eq_true, Option.isNone_iff_eq_none, and_assoc]
  split <;> rfl

/-- The access procedure on a quiet line. -/
theorem seekLine_quiet {d : Device} (h : d.lu.quiet = true) : d.seekLine =
    { d with
      lu := { d.lu with
        backoff :=
          if d.readyToSend = true ∧ d.lu.backoff = none then
            some (d.clock + (d.conf.station + 5 * (d.lu.flight.map Flight.failed).getD 0) % 16 * 64)
          else d.lu.backoff } } := by
  rw [seekLine_eq]
  simp only [h, true_and]

theorem startBit_eq (d : Device) : d.startBit =
    { d with
      lu := { d.lu with
        quiet := false, quietTimer := some (d.clock + 240),
        backoff := if d.lu.quiet = true then none else d.lu.backoff,
        receiver := if d.lu.quiet = true ∧ d.lu.receiver = .idle then .assembling else d.lu.receiver } } := by
  unfold Device.startBit
  by_cases q : d.lu.quiet = true
  · rw [if_pos q]
    simp only [q, true_and]
    rfl
  · rw [if_neg q]
    simp only [q]
    rfl

/-- A frame found at its CRC byte leaves the receiver IDLE, one found before it SKIPPING (R142). -/
theorem foundAtCrc_iff (found : FrameFault) : foundAtCrc found = true ↔ found = .crc ∨ found = .framing true := by
  cases found <;> simp [foundAtCrc]

theorem receives_iff (d : Device) : d.receives = true ↔
    d.sc.mode.hears = true ∧ d.lu.receiver = .assembling ∧ d.lu.sending = false := by
  simp [Device.receives, and_assoc]

/-- Settles O38: each event at the receiver, the access to the line sought where the line has become quiet or the
hold-back is over (`seekLine_eq`). -/
theorem lineEventsMoveTheReceiver : Obligations.LineEventsMoveTheReceiver := by
  refine ⟨fun s t0 reached hears idle due r => ?_, fun s hears idle => ?_, fun s t0 reached last r => ?_,
    fun s hears assembling idle => ?_, fun s found hears assembling idle => ?_⟩
  · subst r
    refine exec_next rfl ((if_pos (by rw [hears, idle]; rfl)).trans ((congrArg (s.dev.onExpiry · _) due).trans ?_))
    exact seekLine_quiet rfl
  · exact exec_next rfl ((if_pos (by rw [hears, idle]; rfl)).trans (startBit_eq _))
  · subst r
    refine exec_next rfl ?_
    rw [last]
    exact seekLine_eq _
  · exact exec_next rfl (if_pos ((receives_iff _).2 ⟨hears, assembling, idle⟩))
  · refine exec_next rfl ((if_pos ((receives_iff _).2 ⟨hears, assembling, idle⟩)).trans ?_)
    unfold Device.discardFrame
    simp only [foundAtCrc_iff]
    rfl

/-! ### The attempt (R144 to R149) -/

/-- The attempt of a frame in flight (R144, R145). -/
theorem beginAttempt_eq {d : Device} (h : d.lu.flight.isSome = true) : d.beginAttempt =
    { d with
      lu := { d.lu with
        sending := true, backoff := none, quiet := false, quietTimer := none, receiver := .assembling } } := if_pos h

/-- The unbegun NOTICE may begin (R147, R148). -/
theorem noticeMayBegin_iff (d : Device) : d.noticeMayBegin = true ↔
    d.lu.unbegun = true ∧ ∀ last, d.lu.lastNotice = some last → last + 250000 ≤ d.clock := by
  unfold Device.noticeMayBegin Device.holdbackOver
  rw [Bool.and_eq_true]
  refine and_congr_right fun _ => ?_
  cases d.lu.lastNotice with
  | none => simp
  | some last => exact decide_eq_true_iff.trans ⟨fun h _ k => by cases k; exact h, fun h => h last rfl⟩

/-- Settles O39: the frame that is next becomes the frame in flight, and its attempt begins. -/
theorem backoffEndsInAnAttempt : Obligations.BackoffEndsInAnAttempt := by
  intro s t0 now speaks quiet due isNow
  subst isNow
  have runs {e : Device} (k : (s.dev.reach t0).chooseFrame.beginAttempt = e) : Makes .backoffExpiry s e :=
    exec_next rfl ((if_pos (by rw [speaks, quiet]; rfl)).trans ((congrArg (s.dev.onExpiry · _) due).trans k))
  refine ⟨fun flight => runs ?_, fun noFlight unbegun held => runs ?_, fun frame rest noFlight held lists => runs ?_⟩
  · rw [Device.chooseFrame, if_pos (show (s.dev.reach t0).lu.flight.isSome = true from flight)]
    exact beginAttempt_eq flight
  · rw [Device.chooseFrame, if_neg (by rw [Device.reach_lu, noFlight]; decide),
      if_pos ((noticeMayBegin_iff (s.dev.reach t0)).2 ⟨unbegun, held⟩)]
    exact beginAttempt_eq rfl
  · have waits : ¬ (s.dev.reach t0).noticeMayBegin = true := by
      rw [noticeMayBegin_iff]
      rintro ⟨unbegun, passed⟩
      rcases held with none | ⟨last, started, early⟩
      · cases none.symm.trans unbegun
      · exact absurd (passed last started) (Nat.not_le.2 early)
    rw [Device.chooseFrame, if_neg (by rw [Device.reach_lu, noFlight]; decide), if_neg waits, Device.reach_lu, lists]
    exact beginAttempt_eq rfl

end Sys2Proof.Machine
end

section
/-! THEOREMS. Frames that are used for nothing but their reception: the own number (`ownNumberIsAConflict`), and
dispatch frames that are not for this station or not accepted (`unacceptedDispatchFramesActOnNothing`). -/

namespace Sys2Proof.Machine

/-! ### Which frame a command brings (Table 51) -/

/-- A dispatch frame of its kind's LEN is received as a frame or as a QUERY; a HOLD alone may be broadcast (R164). -/
theorem exec_dispatch {c : Instr} {sender dest : Byte} (h : dispatchAddresses c = some (sender, dest)) :
    ∃ (broadcast : Bool) (accept : Device → Device),
      (broadcast = true → ∃ payload, c = .hold sender dest payload)
      ∧ ((∀ s, exec c s = s.did fun d => d.dispatchFrame sender dest true broadcast accept)
        ∨ (broadcast = false ∧ ∀ s, exec c s = s.did fun d => d.queryFrame sender dest accept)) := by
  have length {payload : List Byte} {n : Nat} (l : payload.length = n) : lengthIs payload n = true := beq_iff_eq.2 l
  cases c with
  | plan sender dest payload =>
    obtain ⟨l, k⟩ := Option.ite_none_right_eq_some.1 h
    cases k
    exact ⟨false, fun d => d.storePlan (readPlan payload), nofun, .inl fun s => by rw [exec, execPlan, length l]⟩
  | planCancel sender dest payload =>
    obtain ⟨l, k⟩ := Option.ite_none_right_eq_some.1 h
    cases k
    exact ⟨false, Device.cancelPlan, nofun, .inl fun s => by rw [exec, execPlanCancel, length l]⟩
  | hold sender dest payload =>
    obtain ⟨l, k⟩ := Option.ite_none_right_eq_some.1 h
    cases k
    exact ⟨true, _, fun _ => ⟨payload, rfl⟩, .inl fun s => by rw [exec, execHold, length l]⟩
  | acknowledge sender dest payload =>
    obtain ⟨l, k⟩ := Option.ite_none_right_eq_some.1 h
    cases k
    exact ⟨false, fun d => d.clearAlarms (readAlarms payload), nofun, .inl fun s => by
      rw [exec, execAcknowledge, length l]⟩
  | queryLamps sender dest start => cases h; exact ⟨false, _, nofun, .inr ⟨rfl, fun s => rfl⟩⟩
  | queryFaults sender dest start => cases h; exact ⟨false, _, nofun, .inr ⟨rfl, fun s => rfl⟩⟩
  | queryHeat sender dest start => cases h; exact ⟨false, _, nofun, .inr ⟨rfl, fun s => rfl⟩⟩
  | queryLine sender dest start => cases h; exact ⟨false, _, nofun, .inr ⟨rfl, fun s => rfl⟩⟩
  | queryUnknownSubject sender dest subject start => cases h; exact ⟨false, _, nofun, .inr ⟨rfl, fun s => rfl⟩⟩
  | _ => cases h

/-! ### The own number (R143, R162, R168) -/

theorem queryFrame_ownNumber {d : Device} {sender dest : Byte} (h : d.receives = true ∨ d.atLineEvent = true)
    (l : 1 ≤ sender.toNat) (u : sender.toNat ≤ 63) (t : dest.toNat ≤ 63) (own : sender.toNat = d.conf.station)
    (accept : Device → Device) :
    d.queryFrame sender dest accept = close d (d.leaveFrame .idle).numberConflict := by
  have received : (d.receives || d.queryBesideEvent) = true := by
    rcases h with h | h <;> simp [h, Device.queryBesideEvent]
  have valid : (addressesOk sender dest && true) = true := by simp [addressesOk, l, u, t]
  rw [Device.queryFrame, if_pos received, Device.takeFrame, if_neg (by rw [valid]; decide), if_pos own]

/-- The own number in any frame is reported as a number conflict. -/
theorem exec_ownNumber {c : Instr} {s : State} {sender dest : Byte} (h : frameAddresses c = some (sender, dest))
    (r : s.dev.receives = true ∨ s.dev.atLineEvent = true) (l : 1 ≤ sender.toNat) (u : sender.toNat ≤ 63)
    (t : dest.toNat ≤ 63) (own : sender.toNat = s.dev.conf.station) :
    exec c s = .next { s with dev := close s.dev (s.dev.leaveFrame .idle).numberConflict } := by
  have frame := fun use => receiveFrame_ownNumber r l u t own use
  have dispatch (k : dispatchAddresses c = some (sender, dest)) :
      exec c s = .next { s with dev := close s.dev (s.dev.leaveFrame .idle).numberConflict } := by
    obtain ⟨broadcast, accept, -, x | ⟨-, x⟩⟩ := exec_dispatch k
    · exact exec_next (x s) (frame _)
    · exact exec_next (x s) (queryFrame_ownNumber r l u t own accept)
  cases c with
  | noticeReceived sender dest payload =>
    obtain ⟨length, k⟩ := Option.ite_none_right_eq_some.1 h
    cases k
    refine exec_next rfl ?_
    rw [show lengthIs payload 16 = true from beq_iff_eq.2 length]
    exact frame _
  | listReceived sender dest => cases h; exact exec_next rfl (frame _)
  | _ => exact dispatch h

/-- In CONFLICT a following-up leaves no heat, and STATION keeps the bay out of CLEARING and CLEARED (R93, R122,
R131). -/
theorem close_conflict {before d : Device} (m : d.sc.mode = .conflict) :
    (close before d).hcu.stage = 0 ∧ (close before d).hcu.grant = 0 ∧ (close before d).hp.q = 0
      ∧ (close before d).cu.blocks.station = true ∧ (close before d).cu.phase ≠ .clearing
      ∧ (close before d).cu.phase ≠ .cleared := by
  have mode : (close before d).sc.mode = .conflict := by rw [(FollowedCore.close before d).sc, m]
  have cold : (close before d).sc.mode.heats = false := by rw [mode]; rfl
  have forced : (close before d).claimForced = true := by simp [Device.claimForced, cold]
  obtain ⟨⟨-, -, blocks⟩, settled⟩ := close_settled before d
  have station : (close before d).cu.blocks.station = true := by
    rw [blocks]
    exact beq_iff_eq.2 mode
  have revoking : (close before d).cu.blocks.revoking = true := by simp [Blocks.revoking, station]
  refine ⟨close_stage (by simp [Device.capZero, cold]), ?_, close_claim forced, station, fun p => ?_, fun p => ?_⟩
  · rw [(close_heater d before).grant, if_pos forced]
  · unfold Device.phaseSettled at settled
    rw [p] at settled
    cases settled.1.symm.trans revoking
  · unfold Device.phaseSettled at settled
    rw [p] at settled
    cases settled.1.symm.trans revoking

/-- Settles O45: the frame is reported as a number conflict (`exec_ownNumber`), which a station that may send enters
(`ConflictEntered`) and one in CONFLICT meets again. -/
theorem ownNumberIsAConflict : Obligations.OwnNumberIsAConflict := by
  intro s c sender dest frame received l u t own
  have x := exec_ownNumber frame received l u t own
  refine ⟨fun speaks => ?_, fun conflict => ?_⟩
  · have entered : ConflictEntered (s.dev.leaveFrame .idle) (s.dev.leaveFrame .idle).numberConflict :=
      numberConflict_enters speaks
    have idle : s.dev.lu.sending = false := by
      rcases received with k | k
      · exact ((receives_iff _).1 k).2.2
      · simp only [Device.atLineEvent, Bool.and_eq_true, Bool.not_eq_true'] at k
        exact k.1.2
    generalize (s.dev.leaveFrame .idle).numberConflict = e at x entered
    have mode : e.sc.mode = .conflict := by rw [entered.sc]
    have core := FollowedCore.close s.dev e
    have lu : (close s.dev e).lu = e.lu := close_lu (by rw [mode]; rfl)
    obtain ⟨stage, grant, claim, station, clearing, cleared⟩ := close_conflict (before := s.dev) mode
    refine ⟨_, x, rfl, core.clock.trans entered.clock, ?_, ?_, ?_, ?_, ?_, ?_, ?_, ?_, stage, grant, claim, station,
      clearing, cleared, core.plan.1.trans entered.plan, core.plan.2.trans entered.lanes, core.pins.trans entered.pins⟩
    · rw [core.sc, mode]
    · rw [core.sc, entered.sc]
      rfl
    · rw [core.sc, entered.sc]
      rfl
    · rw [core.sc, entered.sc]
    · rw [core.sc, entered.sc]
    · rw [core.hcu, entered.hcu]
    · rw [core.sc, entered.sc]
      rfl
    · rw [lu, entered.lu]
      simp only [idle]
      rfl
  · have silent : (s.dev.leaveFrame .idle).sc.mode.speaks = false := by
      rw [show (s.dev.leaveFrame .idle).sc.mode = .conflict from conflict]
      rfl
    rw [numberConflict_again silent] at x
    exact completes_of_close x

/-! ### Dispatch frames that are not accepted (R143, R164) -/

/-- A dispatch frame that the station hears goes through the three checks, and a HOLD alone may be broadcast. -/
theorem exec_dispatch_heard {c : Instr} {s : State} {sender dest : Byte}
    (h : dispatchAddresses c = some (sender, dest)) (k : s.dev.hearsFrom sender dest) :
    ∃ (broadcast : Bool) (accept : Device → Device),
      (broadcast = true → ∃ payload, c = .hold sender dest payload)
      ∧ exec c s = .next
          { s with dev := close s.dev (s.dev.heard.takeDispatch sender.toNat dest.toNat broadcast accept) } := by
  obtain ⟨broadcast, accept, held, x⟩ := exec_dispatch h
  refine ⟨broadcast, accept, held, ?_⟩
  rcases x with x | ⟨rfl, x⟩
  · exact exec_next (x s) (receiveFrame_heard k _)
  · obtain ⟨hears, assembling, idle, l, u, t, other⟩ := k
    refine exec_next (x s) ?_
    rw [Device.queryFrame, if_pos (by rw [(receives_iff _).2 ⟨hears, assembling, idle⟩]; rfl)]
    exact takeFrame_heard l u t other _

theorem authorises_eq_false {conf : StationConfig} {sender : Nat} (n : sender ≠ conf.dispatch1)
    (m : sender ≠ conf.dispatch2) : conf.authorises sender = false := by
  simp [StationConfig.authorises, n, m]

/-- Settles O49: each frame fails one of the three checks (`Device.takeDispatch`). -/
theorem unacceptedDispatchFramesActOnNothing : Obligations.UnacceptedDispatchFramesActOnNothing := by
  intro s c sender dest frame heard
  obtain ⟨broadcast, accept, held, x⟩ := exec_dispatch_heard frame heard
  have completes {e : Device} (k : s.dev.heard.takeDispatch sender.toNat dest.toNat broadcast accept = e) :
      Completes c s e := completes_of_close (k ▸ x)
  refine ⟨fun some other => completes (if_pos ⟨some, other⟩), fun own n m => completes ?_,
    fun all authorised notHold => completes ?_⟩
  · have here : ¬ (dest.toNat ≠ 0 ∧ dest.toNat ≠ s.dev.heard.conf.station) := by
      rw [heard_conf]
      tauto
    rw [Device.takeDispatch, if_neg here, if_pos (by rw [heard_conf, authorises_eq_false n m]; rfl)]
    rfl
  · have single : broadcast = false := by
      cases b : broadcast with
      | false => rfl
      | true =>
        obtain ⟨payload, hold⟩ := held b
        exact absurd hold (notHold payload)
    obtain ⟨-, -, -, l, -⟩ := heard
    rw [Device.takeDispatch, if_neg (fun k => k.1 all), if_neg (by rw [heard_conf, authorises_of l authorised]; decide),
      if_pos ⟨all, single⟩]
    rfl

end Sys2Proof.Machine
end

section
/-! THEOREMS. A LIST that leaves its queue hands on the place it held (`replyGoesOn_of_close`): its completion
(`listCompletionOffersTheNext`), and the collisions that drop a frame (`collisionsFailTheAttempt`). -/

namespace Sys2Proof.Machine

/-! ### The reply goes on (R165, R167) -/

/-- The station with these LIST frames queued and this of a reply left. -/
def Device.withReply (d : Device) (lists : List ListFrame) (reply : Option Reply) : Device :=
  { d with lu := { d.lu with lists, reply } }

section WithReply

variable {d : Device} {lists : List ListFrame} {rest : Option Reply} {reply : Reply}

/-- The queue does not show in an entry. -/
theorem withReply_subjectTotal (subject : Subject) :
    (d.withReply lists rest).subjectTotal subject = d.subjectTotal subject := by cases subject <;> rfl

theorem withReply_buildList : (d.withReply lists rest).buildList reply = d.buildList reply := by
  have entries : (d.withReply lists rest).subjectEntries reply.subject = d.subjectEntries reply.subject := by
    cases reply.subject <;> rfl
  have summary : (d.withReply lists rest).listSummary reply.subject = d.listSummary reply.subject := by
    cases reply.subject <;> rfl
  unfold Device.buildList
  rw [withReply_subjectTotal, entries, summary]

/-- A reply carries on with its entries. -/
theorem replyAfter_more (more : reply.next < d.subjectTotal reply.subject) : d.replyAfter reply =
    some { reply with next := reply.next + d.listCount reply.subject reply.next, offered := reply.offered + 1 } := by
  have room : 0 < reply.subject.limit := by cases reply.subject <;> decide
  refine if_neg ?_
  unfold Device.listCount
  omega

/-- A frame without entries ends its reply. -/
theorem replyAfter_gone (gone : d.subjectTotal reply.subject ≤ reply.next) : d.replyAfter reply = none := by
  refine if_pos ?_
  rw [Device.listCount, Nat.sub_eq_zero_of_le gone, Nat.min_zero]

variable (n : Nat) (flight : d.lu.flight = none)

include flight

theorem withReply_listsHeld : (d.withReply lists rest).lu.listsHeld = lists.length := by
  unfold Lu.listsHeld
  rw [show (d.withReply lists rest).lu.flight = none from flight]
  rfl

/-- With both places taken the reply waits. -/
theorem withReply_waits (full : 2 ≤ lists.length) :
    (d.withReply lists rest).offerReply n = d.withReply lists rest :=
  offerReply_waits n (by rwa [withReply_listsHeld flight])

variable (speaks : d.sc.mode.speaks = true) (free : lists.length < 2)

include speaks free

/-- With a place free the next frame of the reply joins the queue. -/
theorem withReply_accepted (k : reply.offered = 0 ∨ reply.next < d.subjectTotal reply.subject) :
    (d.withReply lists (some reply)).offerReply (n + 1) =
      (d.withReply (lists ++ [d.buildList reply]) (d.replyAfter reply)).offerReply n := by
  have accepted : (d.withReply lists (some reply)).acceptList reply =
      d.withReply (lists ++ [d.buildList reply]) (d.replyAfter reply) := by
    unfold Device.acceptList Device.replyAfter Device.listCount
    dsimp only
    rw [withReply_subjectTotal, withReply_buildList]
    rfl
  rw [← accepted]
  exact offerReply_accepted n rfl speaks (by rwa [withReply_listsHeld flight]) (by rwa [withReply_subjectTotal])

/-- With no entry left the reply is over. -/
theorem withReply_over (begun : reply.offered ≠ 0) (gone : d.subjectTotal reply.subject ≤ reply.next) :
    (d.withReply lists (some reply)).offerReply (n + 1) = d.withReply lists none :=
  offerReply_over n rfl speaks (by rwa [withReply_listsHeld flight]) begun (by rwa [withReply_subjectTotal])

end WithReply

/-- A place that an event has freed goes to the reply in progress. -/
theorem replyGoesOn_of_close {c : Instr} {s : State} {freed : Device}
    (x : exec c s = .next { s with dev := close s.dev freed.continueReply }) : ReplyGoesOn c s freed := by
  have completes {e : Device} (k : freed.offerReply 3 = e) : Completes c s e :=
    completes_of_close (by rw [x, Device.continueReply, k])
  refine ⟨fun none => completes (offerReply_none 3 none), fun r total count here isTotal isCount speaks flight => ?_⟩
  have offers {e : Device} (k : (freed.withReply freed.lu.lists (some r)).offerReply 3 = e) : Completes c s e :=
    completes (by rw [← k, ← here]; rfl)
  have isCount : freed.listCount r.subject r.next = count := by rw [isCount, isTotal]; rfl
  subst isTotal isCount
  refine ⟨fun full => completes (offerReply_waits 3 ?_), fun free begun gone =>
    offers (withReply_over 2 flight speaks free begun gone), fun free unbegun gone => offers ?_,
    fun one more => offers ?_, fun empty more last => offers ?_, fun empty more => offers ?_⟩
  · exact full.trans (Nat.le_add_right ..)
  · rw [withReply_accepted 2 flight speaks free (.inl unbegun), replyAfter_gone gone]
    exact offerReply_none 2 rfl
  · rw [withReply_accepted 2 flight speaks (by omega) (.inr more), replyAfter_more more]
    exact withReply_waits 2 flight (by simp [one])
  · rw [withReply_accepted 2 flight speaks (by simp [empty]) (.inr more), replyAfter_more more, empty]
    exact withReply_over 1 flight speaks (by simp) (Nat.succ_ne_zero _) last
  · rw [withReply_accepted 2 flight speaks (by simp [empty]) (.inr (by omega)), replyAfter_more (by omega), empty,
      withReply_accepted 1 flight speaks (by simp) (.inr more), replyAfter_more more]
    exact withReply_waits 1 flight (by simp)

/-- Settles O42: the completion frees the place of the LIST (`replyGoesOn_of_close`). -/
theorem listCompletionOffersTheNext : Obligations.ListCompletionOffersTheNext := by
  intro s frame bytes failed sending flight
  refine replyGoesOn_of_close (exec_next rfl (if_pos ?_))
  unfold Lu.sendingList
  rw [sending, flight]

/-! ### A bay held back in READY (R128) -/

theorem settlePhases_stays {d : Device} (n : Nat) (h : d.refresh.nextPhase = none) : d.settlePhases n = d.refresh := by
  cases n with
  | zero => rfl
  | succ n => rw [Device.settlePhases, h]

theorem settlePhases_moves {d : Device} {new : Phase} (n : Nat) (h : d.refresh.nextPhase = some new) :
    d.settlePhases (n + 1) = (d.refresh.setPhase new).settlePhases n := by rw [Device.settlePhases, h]

section Held

variable {d : Device} (ready : d.cu.phase = .ready) (held : d.cu.retryHold = true)

include ready held

/-- Of the phase rules of READY the retry hold leaves the returns (R125, R126). -/
theorem nextPhase_held : d.nextPhase =
    if d.cu.blocks.noPlan then some .coupled else if d.cu.blocks.preparation then some .preparing else none := by
  have eligible : d.eligible = false := by simp [Device.eligible, held]
  unfold Device.nextPhase
  rw [ready, eligible]
  rfl

/-- Without a plan a bay held back returns to COUPLED, with another preparation block to PREPARING, and stays there. -/
theorem settlePhases_held (n : Nat) : (d.settlePhases (n + 1)).cu.phase =
    if d.refresh.cu.blocks.noPlan then .coupled
    else if d.refresh.cu.blocks.preparation then .preparing else .ready := by
  have evaluated := refresh_evaluated d
  have coach : d.refresh.cu.phase.withCoach = true := by
    rw [show d.refresh.cu.phase = .ready from ready]
    rfl
  have next := nextPhase_held (d := d.refresh) ready held
  by_cases noPlan : d.refresh.cu.blocks.noPlan = true
  · rw [if_pos noPlan] at next ⊢
    obtain ⟨phase, -, isMatch, -⟩ := move_keeps (new := .coupled) evaluated rfl coach
    have ends : (d.refresh.setPhase .coupled).refresh.nextPhase = none := by
      unfold Device.nextPhase
      rw [phase, isMatch]
      exact if_neg (not_matched_of_noPlan evaluated noPlan)
    rw [settlePhases_moves n next, settlePhases_stays n ends, phase]
  · rw [if_neg noPlan] at next ⊢
    by_cases preparation : d.refresh.cu.blocks.preparation = true
    · rw [if_pos preparation] at next ⊢
      obtain ⟨phase, blocks, -, -⟩ := move_keeps (new := .preparing) evaluated rfl coach
      have ends : (d.refresh.setPhase .preparing).refresh.nextPhase = none := by
        unfold Device.nextPhase
        rw [phase, blocks]
        exact (if_neg noPlan).trans (if_pos preparation)
      rw [settlePhases_moves n next, settlePhases_stays n ends, phase]
    · rw [if_neg preparation] at next ⊢
      rw [settlePhases_stays (n + 1) next]
      exact ready

/-- A following-up leaves a bay held back out of CLEARING and CLEARED. -/
theorem close_held (before : Device) :
    (close before d).cu.phase ≠ .clearing ∧ (close before d).cu.phase ≠ .cleared := by
  rw [(standing_close before d).phase, settlePhases_held ready held 7]
  constructor <;> repeat' split
  all_goals decide

end Held

/-! ### A frame that is dropped (R128, R146) -/

/-- The evaluations do not look at the retry hold, and a contest lost keeps their inputs. -/
theorem loseContest_blocks {d : Device} (evaluated : d.evaluated) (coach : d.cu.phase.withCoach = true) :
    d.loseContest.refresh.cu.blocks = d.cu.blocks :=
  (move_keeps (new := .ready) evaluated rfl coach).2.1

/-- A following-up that does not enter CLEARING begins no contest (R128). -/
theorem BayFollows.noContest {a b : Device} (h : BayFollows a b) (intent : a.cu.intent = .none)
    (timer : a.cu.intentTimer = none) (key : a.cu.key = none) (phase : b.cu.phase ≠ .clearing) :
    b.cu.intent = .none ∧ b.cu.intentTimer = none ∧ b.cu.key = none := by
  cases next : a.refresh.nextPhase with
  | none =>
    rw [h.stays next]
    exact ⟨intent, timer, key⟩
  | some new =>
    obtain ⟨-, began, ended, gone, -⟩ := h.moves (by rw [next]; rfl)
    exact ⟨began.trans (if_neg phase), ended, gone⟩

/-- Settles O40: below 6 failed attempts the frame stays; a LIST dropped frees its place (`replyGoesOn_of_close`), and a
NOTICE dropped ends the contest it was to announce, the bay then held back in READY (`close_held`). -/
theorem collisionsFailTheAttempt : Obligations.CollisionsFailTheAttempt := by
  intro s flight stopped dropped sending inFlight isStopped isDropped
  have x : exec .collision s =
      .next { s with dev := close s.dev ((s.dev.onLu fun _ => stopped).failAttempt flight) } := by
    subst isStopped
    refine exec_next rfl ?_
    rw [sending, inFlight]
    rfl
  have drops (k : 6 ≤ flight.failed + 1) : (s.dev.onLu fun _ => stopped).failAttempt flight =
      (s.dev.onLu fun _ => dropped).handDrop flight.content := by
    subst isDropped isStopped
    exact if_neg (Nat.not_lt.2 k)
  refine ⟨fun more => ?_, fun frame last content => ?_, fun snap last content other => ?_,
    fun snap last content shown clearing awaiting => ?_⟩
  · have stays : (s.dev.onLu fun _ => stopped).failAttempt flight =
        (s.dev.onLu fun _ => { stopped with flight := some { flight with failed := flight.failed + 1 } }) := if_pos more
    rw [stays] at x
    exact completes_of_close x
  · refine replyGoesOn_of_close (x.trans ?_)
    rw [drops last, content]
    rfl
  · have nothing : (s.dev.onLu fun _ => dropped).noticeDropped snap = s.dev.onLu fun _ => dropped := if_neg other
    rw [drops last, content, Device.handDrop, nothing] at x
    exact completes_of_close x
  · rw [drops last, content, Device.handDrop, Device.noticeDropped, if_pos ⟨shown, clearing, awaiting⟩] at x
    obtain ⟨core, bay, -⟩ := followed_close s.dev (s.dev.onLu fun _ => dropped).loseContest
    obtain ⟨notClearing, notCleared⟩ :=
      close_held (d := (s.dev.onLu fun _ => dropped).loseContest) rfl rfl s.dev
    obtain ⟨intent, timer, key⟩ := bay.noContest rfl rfl rfl notClearing
    have lost := loseContest_over (s.dev.onLu fun _ => dropped)
    refine ⟨_, x, rfl, core.clock.trans lost.clock, ?_, notClearing, notCleared, intent, timer, key,
      fun evaluated preparation noPlan => ?_, core.plan.1.trans lost.plan, ?_, ?_, ?_⟩
    · rw [core.lu, lost.lu]
      rfl
    · have blocks : (s.dev.onLu fun _ => dropped).loseContest.refresh.cu.blocks = s.dev.cu.blocks := by
        subst isDropped isStopped
        exact loseContest_blocks evaluated (show s.dev.cu.phase.withCoach = true by rw [clearing]; rfl)
      have stands : (s.dev.onLu fun _ => dropped).loseContest.refresh.nextPhase = none := by
        rw [nextPhase_held rfl rfl, blocks, noPlan, preparation]
        rfl
      rw [bay.stays stands]
      exact ⟨rfl, rfl⟩
    · rw [core.sc, lost.sc]
      rfl
    · rw [core.sc, lost.sc]
      rfl
    · rw [core.hcu, lost.hcu]
      rfl

end Sys2Proof.Machine
end

section
/-! THEOREMS. The fields of a NOTICE (`noticeFieldsAreChecked`): which a peer checks and which it clamps, and where the
own NOTICE carries them. -/

namespace Sys2Proof.Machine

/-! ### Codes that are read back (Table 62, R170) -/

theorem Phase.code_le (x : Phase) : x.code ≤ 7 := by cases x <;> decide

theorem Mode.code_le (x : Mode) : x.code ≤ 5 := by cases x <;> decide

theorem MatchState.code_le (x : MatchState) : x.code ≤ 2 := by cases x <;> decide

theorem SectionStatus.code_le (x : SectionStatus) : x.code ≤ 3 := by cases x <;> decide

theorem Phase.ofCode_code (x : Phase) : Phase.ofCode x.code = some x := by cases x <;> rfl

theorem Mode.ofCode_code (x : Mode) : Mode.ofCode x.code = some x := by cases x <;> rfl

theorem Phase.ofCode_isSome (n : Nat) : (Phase.ofCode n).isSome = true ↔ n ≤ 7 := by
  rcases Nat.lt_or_ge n 8 with h | h
  · interval_cases n <;> decide
  · obtain ⟨k, rfl⟩ := Nat.exists_eq_add_of_le' h
    exact ⟨nofun, fun _ => by omega⟩

theorem Mode.ofCode_isSome (n : Nat) : (Mode.ofCode n).isSome = true ↔ n ≤ 5 := by
  rcases Nat.lt_or_ge n 6 with h | h
  · interval_cases n <;> decide
  · obtain ⟨k, rfl⟩ := Nat.exists_eq_add_of_le' h
    exact ⟨nofun, fun _ => by omega⟩

theorem Phase.code_ofCode {n : Nat} (h : n ≤ 7) : ((Phase.ofCode n).getD .vacant).code = n := by
  interval_cases n <;> rfl

theorem Mode.code_ofCode {n : Nat} (h : n ≤ 5) : ((Mode.ofCode n).getD .start).code = n := by
  interval_cases n <;> rfl

/-! ### The checks of a peer (R151) -/

theorem noticeOk_iff (payload : List Byte) : noticeOk payload = true ↔
    (1 ≤ byteAt payload 0 ∧ byteAt payload 0 ≤ 16)
      ∧ (1 ≤ bitsAt payload 1 0 3 ∧ bitsAt payload 1 0 3 ≤ 4)
      ∧ bitsAt payload 2 0 4 ≤ 7 ∧ bitsAt payload 1 4 3 ≤ 5
      ∧ (wordAt payload 7 ≤ 1080 ∨ wordAt payload 7 = 65535) := by
  simp only [noticeOk, Bool.and_eq_true, decide_eq_true_eq, Phase.ofCode_isSome, Mode.ofCode_isSome, and_assoc]

/-! ### The own NOTICE (R149, Table 63) -/

section Payload

variable (d : Device)

/-- Lane, position, mode, phase, match state and LATE. -/
theorem notice_bay (lane : d.conf.lane ≤ 16) (position : d.conf.position ≤ 4) :
    byteAt d.noticePayload 0 = d.conf.lane ∧ bitsAt d.noticePayload 1 0 3 = d.conf.position
      ∧ bitsAt d.noticePayload 1 4 3 = d.sc.mode.code ∧ bitsAt d.noticePayload 2 0 4 = d.cu.phase.code
      ∧ bitsAt d.noticePayload 2 4 2 = d.cu.matchState.code ∧ bitAt d.noticePayload 2 6 = d.cu.late := by
  have mode := d.sc.mode.code_le
  have phase := d.cu.phase.code_le
  have isMatch := d.cu.matchState.code_le
  have late := d.cu.late.toNat_le
  have second : byteAt d.noticePayload 1 = d.conf.position + 16 * d.sc.mode.code := Nat.mod_eq_of_lt (by omega)
  have third : byteAt d.noticePayload 2 = d.cu.phase.code + 16 * d.cu.matchState.code + 64 * d.cu.late.toNat := by
    refine (byteOf_toNat _).trans ?_
    rw [flagAt_eq]
    omega
  exact ⟨Nat.mod_eq_of_lt (by omega), bitsAt_of second (by omega), bitsAt_of second (by omega),
    bitsAt_of third (by omega), bitsAt_of third (by omega), bitAt_of third (by omega)⟩

/-- The block set. -/
theorem notice_blocks {p : List Byte} (h : p = d.noticePayload) :
    bitAt p 3 0 = d.cu.blocks.noPlan ∧ bitAt p 3 1 = d.cu.blocks.planMismatch ∧ bitAt p 3 2 = d.cu.blocks.heat
      ∧ bitAt p 3 3 = d.cu.blocks.lampPending ∧ bitAt p 3 4 = d.cu.blocks.lampFail
      ∧ bitAt p 3 5 = d.cu.blocks.signalFail ∧ bitAt p 3 6 = d.cu.blocks.faultPending
      ∧ bitAt p 3 7 = d.cu.blocks.faultStop ∧ bitAt p 4 0 = d.cu.blocks.link ∧ bitAt p 4 1 = d.cu.blocks.lane
      ∧ bitAt p 4 2 = d.cu.blocks.hold ∧ bitAt p 4 3 = d.cu.blocks.station := by
  subst h
  have low : byteAt d.noticePayload 3 = d.cu.blocks.code % 256 := byteOf_toNat _
  have high : byteAt d.noticePayload 4 = d.cu.blocks.code / 256 % 256 := byteOf_toNat _
  simp only [Blocks.code, flagAt_eq] at low high
  have b0 := d.cu.blocks.noPlan.toNat_le
  have b1 := d.cu.blocks.planMismatch.toNat_le
  have b2 := d.cu.blocks.heat.toNat_le
  have b3 := d.cu.blocks.lampPending.toNat_le
  have b4 := d.cu.blocks.lampFail.toNat_le
  have b5 := d.cu.blocks.signalFail.toNat_le
  have b6 := d.cu.blocks.faultPending.toNat_le
  have b7 := d.cu.blocks.faultStop.toNat_le
  have b8 := d.cu.blocks.link.toNat_le
  have b9 := d.cu.blocks.lane.toNat_le
  have b10 := d.cu.blocks.hold.toNat_le
  have b11 := d.cu.blocks.station.toNat_le
  exact ⟨bitAt_of low (by omega), bitAt_of low (by omega), bitAt_of low (by omega), bitAt_of low (by omega),
    bitAt_of low (by omega), bitAt_of low (by omega), bitAt_of low (by omega), bitAt_of low (by omega),
    bitAt_of high (by omega), bitAt_of high (by omega), bitAt_of high (by omega), bitAt_of high (by omega)⟩

/-- The alarm set is read back as it is written. -/
theorem readAlarms_code (a : Alarms) : readAlarms [byteOf a.code] = a := by
  have b0 := a.pullout.toNat_le
  have b1 := a.overcurrent.toNat_le
  have b2 := a.contactorFail.toNat_le
  have b3 := a.linkLost.toNat_le
  have b4 := a.signalRedFail.toNat_le
  have b5 := a.numberConflict.toNat_le
  have b6 := a.shedLineFault.toNat_le
  have b7 := a.probeFault.toNat_le
  have byte : byteAt [byteOf a.code] 0 = a.code % 256 := byteOf_toNat _
  generalize [byteOf a.code] = payload at byte ⊢
  simp only [Alarms.code, flagAt_eq] at byte
  rw [readAlarms, bitAt_of byte (b := a.pullout) (by omega), bitAt_of byte (b := a.overcurrent) (by omega),
    bitAt_of byte (b := a.contactorFail) (by omega), bitAt_of byte (b := a.linkLost) (by omega),
    bitAt_of byte (b := a.signalRedFail) (by omega), bitAt_of byte (b := a.numberConflict) (by omega),
    bitAt_of byte (b := a.shedLineFault) (by omega), bitAt_of byte (b := a.probeFault) (by omega)]

/-- The section statuses. -/
theorem notice_sections :
    bitsAt d.noticePayload 6 0 2 = d.sc.phase.status.code ∧ bitsAt d.noticePayload 6 2 2 = d.sc.heat.status.code
      ∧ bitsAt d.noticePayload 6 4 2 = d.sc.lamp.status.code
      ∧ bitsAt d.noticePayload 6 6 2 = d.sc.fault.status.code := by
  have phase := d.sc.phase.status.code_le
  have heat := d.sc.heat.status.code_le
  have lamp := d.sc.lamp.status.code_le
  have fault := d.sc.fault.status.code_le
  have byte : byteAt d.noticePayload 6 = d.sc.phase.status.code + 4 * d.sc.heat.status.code
      + 16 * d.sc.lamp.status.code + 64 * d.sc.fault.status.code := Nat.mod_eq_of_lt (by omega)
  exact ⟨bitsAt_of byte (by omega), bitsAt_of byte (by omega), bitsAt_of byte (by omega), bitsAt_of byte (by omega)⟩

/-- M as it is carried. -/
theorem minutesShown_le (m : ∀ plan, d.cu.plan = some plan → plan.minutes ≤ 1080) :
    d.cu.minutesShown ≤ 1080 ∨ d.cu.minutesShown = 65535 := by
  unfold Cu.minutesShown
  split
  · exact .inr rfl
  · next plan k => exact .inl (m plan k)

theorem late_eq : d.cu.late = (d.cu.plan.map Plan.late).getD false := by
  unfold Cu.late
  cases d.cu.plan <;> rfl

/-- M is read back as it is carried. -/
theorem notice_minutes (m : ∀ plan, d.cu.plan = some plan → plan.minutes ≤ 1080) :
    wordAt d.noticePayload 7 = d.cu.minutesShown ∧ noticeMinutes d.noticePayload = d.cu.plan.map Plan.minutes := by
  have word : wordAt d.noticePayload 7 = d.cu.minutesShown := word_carries (by
    have := minutesShown_le d m
    omega)
  refine ⟨word, ?_⟩
  rw [noticeMinutes, word, Cu.minutesShown]
  split
  · next k => rw [k]; rfl
  · next plan k =>
    have := m plan k
    rw [k, if_neg (by omega)]
    rfl

/-- Claim, grant, stage, cabin temperature and slack. -/
theorem notice_heat (q : d.hp.q ≤ 160) (g : d.hcu.grant ≤ 160) (s : d.hcu.stage ≤ 7) (lo : -1080 ≤ d.hp.slack)
    (hi : d.hp.slack ≤ 1080) (c : ∀ last, d.clc.lastStatus = some last → -80 ≤ last.tc ∧ last.tc ≤ 100) :
    byteAt d.noticePayload 9 = d.hp.q ∧ byteAt d.noticePayload 10 = d.hcu.grant
      ∧ bitsAt d.noticePayload 11 0 3 = d.hcu.stage ∧ bitsAt d.noticePayload 11 4 2 = d.clc.tcState.code
      ∧ signedAt d.noticePayload 12 = d.hp.slack
      ∧ (d.noticePayload.getD 15 0#8).toInt = (d.clc.lastStatus.map LastStatus.tc).getD 0 := by
  have state := d.clc.tcState.code_le
  have byte : byteAt d.noticePayload 11 = d.hcu.stage + 16 * d.clc.tcState.code := Nat.mod_eq_of_lt (by omega)
  have slack : wordAt d.noticePayload 12 = (BitVec.ofInt 16 d.hp.slack).toNat :=
    word_carries (Nat.le_of_lt_succ (BitVec.isLt _))
  have cabin : -80 ≤ d.clc.tcShown ∧ d.clc.tcShown ≤ 100 := by
    unfold Clc.tcShown
    split
    · decide
    · next last k => exact c last k
  rw [← tcShown_eq]
  exact ⟨Nat.mod_eq_of_lt (by omega), Nat.mod_eq_of_lt (by omega), bitsAt_of byte (by omega), bitsAt_of byte (by omega),
    signedWord_carries (by omega) (by omega) slack, signedByteOf_toInt (by omega) (by omega)⟩

/-- The heat flags. -/
theorem notice_flags {p : List Byte} (h : p = d.noticePayload) :
    bitAt p 14 0 = d.hp.short ∧ bitAt p 14 1 = d.hp.unreachable ∧ bitAt p 14 2 = d.hcu.faultLockout
      ∧ bitAt p 14 3 = d.hcu.overLockout ∧ bitAt p 14 4 = d.hp.stale ∧ bitAt p 14 5 = d.hcu.shedFlag
      ∧ bitAt p 14 6 = d.hcu.windowFlag := by
  subst h
  have b0 := d.hp.short.toNat_le
  have b1 := d.hp.unreachable.toNat_le
  have b2 := d.hcu.faultLockout.toNat_le
  have b3 := d.hcu.overLockout.toNat_le
  have b4 := d.hp.stale.toNat_le
  have b5 := d.hcu.shedFlag.toNat_le
  have b6 := d.hcu.windowFlag.toNat_le
  have byte : byteAt d.noticePayload 14 = d.heatFlags % 256 := byteOf_toNat _
  simp only [Device.heatFlags, flagAt_eq] at byte
  exact ⟨bitAt_of byte (by omega), bitAt_of byte (by omega), bitAt_of byte (by omega), bitAt_of byte (by omega),
    bitAt_of byte (by omega), bitAt_of byte (by omega), bitAt_of byte (by omega)⟩

end Payload

/-- Settles O44: the checks by `noticeOk_iff`, the own NOTICE field by field. -/
theorem noticeFieldsAreChecked : Obligations.NoticeFieldsAreChecked := by
  refine ⟨noticeOk_iff, fun station payload previous now ok => ?_, ?_⟩
  · obtain ⟨-, -, phase, mode, -⟩ := (noticeOk_iff payload).1 ok
    exact ⟨rfl, rfl, rfl, Phase.code_ofCode phase, Mode.code_ofCode mode, rfl, rfl, rfl, fun none => if_pos none,
      fun m => if_neg (by omega), rfl⟩
  · intro d p isP laneLo laneHi positionLo positionHi q g s slackLo slackHi m c
    obtain ⟨lane, position, mode, phase, isMatch, late⟩ := notice_bay d laneHi positionHi
    obtain ⟨phaseStatus, heatStatus, lampStatus, faultStatus⟩ := notice_sections d
    obtain ⟨word, minutes⟩ := notice_minutes d m
    obtain ⟨claim, grant, stage, state, slack, cabin⟩ := notice_heat d q g s slackLo slackHi c
    obtain ⟨short, unreachable, fault, current, stale, shed, window⟩ := notice_flags d isP
    have blocks := notice_blocks d isP
    subst isP
    refine ⟨rfl, (noticeOk_iff _).2 ?_, fun station previous now => ?_, isMatch, late.trans (late_eq d), blocks,
      readAlarms_code _, phaseStatus, heatStatus, lampStatus, faultStatus, fun none => ?_, grant, stage, state,
      ⟨short, unreachable, fault, current, stale, shed, ?_⟩, cabin⟩
    · rw [lane, position, phase, mode, word]
      exact ⟨⟨laneLo, laneHi⟩, ⟨positionLo, positionHi⟩, d.cu.phase.code_le, d.sc.mode.code_le, minutesShown_le d m⟩
    · have whole : clampInt (-1080) 1080 d.hp.slack = d.hp.slack := by
        rw [clampInt, min_eq_right slackHi, max_eq_right slackLo]
      rw [noticeEntry, lane, position, phase, mode, claim, slack, minutes, Phase.ofCode_code, Mode.ofCode_code, whole,
        min_eq_right q]
      rfl
    · rw [word, Cu.minutesShown, none]
    · rw [window]
      exact bne_iff_ne

end Sys2Proof.Machine
end

section
/-! THEOREMS. Every command answers a next state and keeps the queue (`everyStepAnswersNext`); the values after reset
(`resetLeavesTheStatedValues`), the commands that lead there (`resetCommandsReturnEveryBlock`), and the invariants that
hold there (`invariantsHoldAtReset`). -/

namespace Sys2Proof.Machine

/-! ### Every command -/

/-- Every meaning is an effect on the device alone. -/
theorem exec_did (c : Instr) : ∃ f : Device → Device, ∀ s, exec c s = s.did f := by
  cases c <;> exact ⟨_, fun _ => rfl⟩

/-- Settles O2: a meaning that works on the device alone answers a next state with the queue kept (`exec_did`), and an
empty queue leaves the idle step. -/
theorem everyStepAnswersNext : Obligations.EveryStepAnswersNext := by
  refine ⟨fun c s => ?_, fun s empty => ?_⟩
  · obtain ⟨f, effect⟩ := exec_did c
    exact ⟨s.onDevice f, effect s, rfl⟩
  · have idle : step s = .next s.idle := by rw [step, empty]
    exact idle

/-! ### Reset (R154) -/

/-- Settles O3: each block stands at the reset value of its table. -/
theorem resetLeavesTheStatedValues : Obligations.ResetLeavesTheStatedValues := by
  unfold Obligations.ResetLeavesTheStatedValues
  repeat' apply And.intro
  all_goals rfl

/-- What stands at the pins of a device that is held in reset: no stage, no lamp, no line. -/
theorem heldInReset_drivesNothing (clock : Nat) (pins : Pins) (lamp : Lamp) :
    (Device.resetBlocks clock pins .held none none).stagePins = 0#3
      ∧ (Device.resetBlocks clock pins .held none none).lampDrive lamp = .off
      ∧ (Device.resetBlocks clock pins .held none none).pullsShed = false
      ∧ (∀ n, (Device.resetBlocks clock pins .held none none).drivesDepotLine n = false)
      ∧ (Device.resetBlocks clock pins .held none none).drivesCoachLink = false := by
  refine ⟨rfl, ?_, rfl, fun _ => rfl, rfl⟩
  cases lamp <;> rfl

/-- Settles O4: the level of the RESET pin decides whether the blocks are held or the configuration read begins. -/
theorem resetCommandsReturnEveryBlock : Obligations.ResetCommandsReturnEveryBlock :=
  ⟨fun _ high => exec_next rfl (if_pos high),
    fun _ low => exec_next rfl (if_neg (Bool.eq_false_iff.1 low)),
    fun _ low => exec_next rfl (if_neg (Bool.eq_false_iff.1 low)),
    fun _ => rfl,
    heldInReset_drivesNothing⟩

/-- Identification is under way nowhere and no identity is held (R40). -/
theorem reset_identifiesInCoupling : State.reset.dev.identifiesInCoupling :=
  ⟨by decide, fun _ => rfl, fun _ => rfl, fun _ => rfl⟩

/-- No stage is drawn, no claim announced and no grant held (R118). -/
theorem reset_stageAnnounced : State.reset.dev.stageAnnounced :=
  ⟨Nat.le_refl _, fun _ h => (by cases h), fun _ _ h => (by cases h)⟩

/-- In START nothing runs and no peer is known (R154). -/
theorem reset_peersAndSilence :
    State.reset.dev.peersOk ∧ State.reset.dev.silentModes ∧ State.reset.dev.conflictSilent :=
  ⟨⟨List.Pairwise.nil, fun _ m => absurd m List.not_mem_nil, fun _ => rfl⟩,
    ⟨fun _ => by decide, fun _ => rfl, fun m => by cases m⟩, fun m => by cases m⟩

/-- The tables, counters, queue and contest start empty or at 0, the channels in their order (R41, R62, R119). -/
theorem reset_bounds :
    State.reset.dev.ltu.tableOk ∧ State.reset.dev.ftu.tableOk ∧ State.reset.dev.countersOk
      ∧ State.reset.dev.lu.queueOk ∧ State.reset.dev.cu.contestOk :=
  ⟨⟨by decide, by decide⟩, ⟨Nat.zero_le _, List.Pairwise.nil⟩, by unfold Device.countersOk; decide,
    ⟨Nat.zero_le _, fun _ h => by cases h⟩, by unfold Cu.contestOk; decide⟩

/-- Settles O50, invariant by invariant: those that every step keeps hold after any reset (`resetBlocks_settled` and its
like), the others by the values of reset. -/
theorem invariantsHoldAtReset : Obligations.InvariantsHoldAtReset := by
  obtain ⟨evaluated, settled⟩ := resetBlocks_settled 0 Pins.reset0 .reading none none
  obtain ⟨peers, silent, conflict⟩ := reset_peersAndSilence
  obtain ⟨lamps, faults, counters, queue, contest⟩ := reset_bounds
  exact ⟨resetBlocks_stageCapped _ _ _ _ _, reset_stageAnnounced, reset_identifiesInCoupling, evaluated, settled, peers,
    lamps, faults, counters, queue, contest, silent, conflict, resetBlocks_monitorOk _ _ _ _ _,
    resetBlocks_aspectOk _ _ _ _ _⟩

end Sys2Proof.Machine
end

section
/-! THEOREMS. What is clamped of a configuration image, an identity and a fault record (`itemsAndFieldsAreClamped`), and
what the read of the configuration memory leads to (`configurationReadAcceptsOrHalts`). -/

namespace Sys2Proof.Machine

/-! ### Fields of a byte (R169) -/

theorem bitsAt_lt (payload : List Byte) (i low width : Nat) : bitsAt payload i low width < 2 ^ width :=
  Nat.mod_lt _ (Nat.two_pow_pos width)

/-- A flag is the bit of its byte's value. -/
theorem bitAt_eq_testBit (payload : List Byte) (i bit : Nat) : bitAt payload i bit = (byteAt payload i).testBit bit := by
  rw [bitAt, bitsAt, Nat.testBit_eq_decide_div_mod_eq, pow_one]
  rfl

/-! ### The coach identity (R1, R2, Table 8) -/

section Identity

variable (idn profile : List Byte)

/-- The entry of a coach channel is the one of its profile byte. -/
theorem readIdentity_entry {num : Nat} (lo : 1 ≤ num) (hi : num ≤ 16) :
    (readIdentity idn profile).entry num = profileEntry profile (num - 1) := by
  have k : num - 1 < 16 := by omega
  simp [CoachIdentity.entry, readIdentity, profileIndices, List.getD_eq_getElem?_getD, k]

/-- A category that is not ADVISORY is taken as MANDATORY (R2). -/
theorem profileEntry_mandatory (i : Nat) :
    (profileEntry profile i).mandatory = false ↔ bitsAt profile i 1 2 = 1 := by
  simp [profileEntry]

theorem profileEntryClamped_iff (i : Nat) : profileEntryClamped profile i = true ↔
    1 < bitsAt profile i 1 2 ∨ (profileEntry profile i).leds ≠ bitsAt profile i 4 4 := by
  simp [profileEntryClamped, profileEntry]

/-- A byte of the profile is that of a channel 1..16. -/
theorem any_profileIndices (p : Nat → Bool) :
    profileIndices.any p = true ↔ ∃ num, 1 ≤ num ∧ num ≤ 16 ∧ p (num - 1) = true := by
  simp only [profileIndices, List.any_eq_true, List.mem_range]
  constructor
  · rintro ⟨i, small, holds⟩
    exact ⟨i + 1, by omega, by omega, holds⟩
  · rintro ⟨num, lo, hi, holds⟩
    exact ⟨num - 1, by omega, holds⟩

/-- The profile-clamped note (R2). -/
theorem readIdentity_clamped {id : CoachIdentity} (h : id = readIdentity idn profile) : id.clamped = true ↔
    id.number ≠ wordAt idn 0 ∨ id.capacity ≠ wordAt idn 2 ∨ id.loss ≠ wordAt idn 4 ∨ id.rating ≠ byteAt idn 6
      ∨ id.stages ≠ byteAt idn 7 ∨ id.vf ≠ byteAt idn 8
      ∨ ∃ num, 1 ≤ num ∧ num ≤ 16
          ∧ (1 < bitsAt profile (num - 1) 1 2 ∨ (id.entry num).leds ≠ bitsAt profile (num - 1) 4 4) := by
  subst h
  have entries : profileIndices.any (profileEntryClamped profile) = true ↔ ∃ num, 1 ≤ num ∧ num ≤ 16
      ∧ (1 < bitsAt profile (num - 1) 1 2
        ∨ ((readIdentity idn profile).entry num).leds ≠ bitsAt profile (num - 1) 4 4) := by
    rw [any_profileIndices]
    refine exists_congr fun num => and_congr_right fun lo => and_congr_right fun hi => ?_
    rw [profileEntryClamped_iff, readIdentity_entry idn profile lo hi]
  rw [← entries]
  simp only [readIdentity, Bool.or_eq_true, bne_iff_ne, or_assoc]

end Identity

/-! ### Fault records (R52) -/

theorem FaultClass.code_ofCode {n : Nat} (h : n ≤ 5) : (FaultClass.ofCode n).code = n := by
  interval_cases n <;> rfl

/-- A code that names no class is taken as OTHER. -/
theorem FaultClass.ofCode_other {n : Nat} (h : 6 ≤ n) : FaultClass.ofCode n = .other := by
  obtain ⟨m, rfl⟩ := Nat.exists_eq_add_of_le' h
  rfl

theorem recordsOf_lengths (payload : List Byte) :
    (payload.length = 1 → recordsOf payload = [])
      ∧ (payload.length = 9 → recordsOf payload = [recordAt payload 1])
      ∧ (payload.length = 17 → recordsOf payload = [recordAt payload 1, recordAt payload 9]) := by
  unfold recordsOf
  refine ⟨fun h => ?_, fun h => ?_, fun h => ?_⟩ <;> rw [h] <;> rfl

/-- Settles O6: item by item, field by field. -/
theorem itemsAndFieldsAreClamped : Obligations.ItemsAndFieldsAreClamped := by
  refine ⟨fun image => ?_, fun idn profile => ?_, fun payload i => ?_, recordsOf_lengths⟩
  · refine ⟨rfl, rfl, rfl, rfl, rfl, rfl, rfl, rfl, rfl, rfl, fun k small => ?_, rfl, rfl, rfl, rfl, rfl, rfl, rfl⟩
    rw [bitAt_eq_testBit]
    exact (BitVec.getLsbD_ofNat _ _ _).trans (by rw [decide_eq_true small, Bool.true_and])
  · refine ⟨rfl, rfl, rfl, rfl, rfl, rfl, by simp [readIdentity, profileIndices], fun num lo hi => ?_,
      readIdentity_clamped idn profile rfl⟩
    rw [readIdentity_entry idn profile lo hi]
    exact ⟨rfl, profileEntry_mandatory profile _, rfl⟩
  · exact ⟨rfl, FaultClass.code_ofCode, FaultClass.ofCode_other, rfl, rfl, by simp [recordAt], rfl, rfl⟩

/-! ### The configuration read (R155, R157, R158) -/

section Read

variable {image : List Byte}

theorem imageOk_iff : imageOk image = true ↔
    image.length = 32 ∧ crc8 (image.take 31) = image.getD 31 0#8 ∧ byteAt image 0 ≠ 0 ∧ byteAt image 1 ≠ 0 := by
  simp only [imageOk, Bool.and_eq_true, beq_iff_eq, bne_iff_ne, and_assoc]

/-- While the memory is being read the answer is followed up. -/
theorem exec_configurationRead {s : State} (start : s.dev.sc.mode = .start) (reading : s.dev.sc.startStep = .reading)
    (answer : Option (List Byte)) :
    exec (.configurationRead answer) s = .next { s with dev := close s.dev (s.dev.configurationRead answer) } :=
  exec_next rfl (if_pos ⟨start, reading⟩)

theorem configurationRead_accepts (d : Device) (ok : imageOk image = true) :
    d.configurationRead (some image) = d.acceptImage image :=
  if_pos ok

/-- A memory that does not answer, or an image that fails a check, leads to HALT. -/
theorem configurationRead_halts (d : Device) {answer : Option (List Byte)}
    (bad : ∀ image, answer = some image → imageOk image = false) : d.configurationRead answer = d.enterHalt := by
  cases answer with
  | none => rfl
  | some image => exact if_neg (Bool.eq_false_iff.1 (bad image rfl))

/-- In HALT the bay signal shows RED flashing (R138, R158). -/
theorem close_halt {before d : Device} (halt : d.sc.mode = .halt) : (close before d).cu.aspect = ⟨.red, true⟩ := by
  obtain ⟨core, -⟩ := followed_close before d
  obtain ⟨-, red, -⟩ := close_aspectOk before d
  refine red (.inl ?_)
  rw [core.sc]
  exact halt

end Read

/-- Settles O5: the checks decide between `acceptImage` and HALT, and what they lead to is followed up. -/
theorem configurationReadAcceptsOrHalts : Obligations.ConfigurationReadAcceptsOrHalts := by
  refine ⟨fun s image start reading length crc station lane => ?_, fun s answer start reading bad => ?_⟩
  · have x := exec_configurationRead start reading (some image)
    rw [configurationRead_accepts s.dev (imageOk_iff.2 ⟨length, crc, station, lane⟩)] at x
    exact completes_of_close x
  · have x := exec_configurationRead start reading answer
    have failed : ∀ image, answer = some image → imageOk image = false := fun image e => by
      rw [Bool.eq_false_iff, Ne, imageOk_iff]
      have := bad image e
      tauto
    rw [configurationRead_halts s.dev failed] at x
    exact ⟨_, x, rfl, followed_close _ _, close_halt rfl⟩

end Sys2Proof.Machine
end

section
/-! THEOREMS. The changes of mode by the timers, and the minute tick (`modeTimersAndMinuteTick`). -/

namespace Sys2Proof.Machine

/-- A periodic timer that has run out starts again from its deadline (log entry 2). -/
theorem minuteTimer_next {d : Device} {t : Nat} (due : d.sc.minuteTimer = some t) :
    d.sc.minuteTimer.next Config.minutePeriod = some (t + 60000000) := by
  rw [due]
  rfl

/-- One minute of the countdown (R7). -/
theorem minute_eq (plan : Plan) (phase : Phase) : plan.minute phase =
    { plan with
      minutes := plan.minutes - 1,
      late := plan.late || (decide (plan.minutes ≤ 1) && decide (phase ≠ .departing)) } := by
  unfold Plan.minute
  congr
  cases phase <;> rfl

/-- Settles O8: the timer that has run out brings the clock to its deadline, and its effect is followed up; a silence
outside RUN has none. -/
theorem modeTimersAndMinuteTick : Obligations.ModeTimersAndMinuteTick := by
  refine ⟨fun s t0 due => ?_, fun s t0 due run => ?_, fun s t0 due other => ?_, fun s t0 last due => ?_,
    fun s t0 due => ?_⟩
  · exact completes_of_close (exec_next rfl (congrArg (s.dev.onExpiry · _) due))
  · exact completes_of_close (exec_next rfl ((congrArg (s.dev.onExpiry · _) due).trans (if_pos run)))
  · exact exec_next rfl ((congrArg (s.dev.onExpiry · _) due).trans (if_neg other))
  · exact completes_of_close (exec_next rfl ((if_pos last).trans (congrArg (s.dev.onExpiry · _) due)))
  · refine completes_of_close (before := s.dev) (exec_next rfl ((congrArg (s.dev.onExpiry · _) due).trans ?_))
    simp only [Device.onExpiry_some, Device.onSc, Device.onCu, Device.reach, minuteTimer_next due, minute_eq]
    rfl

end Sys2Proof.Machine
end

section
/-! THEOREMS. Entry to LISTEN (`entryToListenStartsTheTimers`): what it starts, and what becomes of the signal pass that
falls due with it, whatever the lamp check was at. -/

namespace Sys2Proof.Machine

/-! ### The signal channels (R62, R73) -/

/-- The fitted signal channels. -/
def Ltu.signalSet (ltu : Ltu) : List Nat :=
  (ltu.channels.filter fun c => decide (16 < c.num ∧ c.status ≠ .off)).map Channel.num

theorem passSet_signal (d : Device) : d.passSet .signal = d.ltu.signalSet := by
  have signal (c : Channel) : d.inPass c .signal = decide (16 < c.num ∧ c.status ≠ .off) := by
    by_cases coach : c.num ≤ 16
    · simp [Device.inPass, Channel.ofCoach, coach, Nat.not_lt.2 coach]
    · simp [Device.inPass, Channel.ofCoach, Channel.fitted, Nat.not_le.1 coach, bne, beq_eq_decide]
  simp only [Device.passSet, Ltu.signalSet, signal]

theorem signalSet_eq_nil {ltu : Ltu} (h : ltu.signalSet = []) : ∀ c ∈ ltu.channels, 16 < c.num → c.status = .off := by
  intro c m signal
  rw [Ltu.signalSet, List.map_eq_nil_iff, List.filter_eq_nil_iff] at h
  simpa [signal] using h c m

/-- What writes neither number nor status of a channel leaves the signal channels. -/
theorem signalSet_map {ltu new : Ltu} {f : Channel → Channel} (h : new.channels = ltu.channels.map f)
    (keeps : ∀ c, (f c).num = c.num ∧ (f c).status = c.status) : new.signalSet = ltu.signalSet := by
  unfold Ltu.signalSet
  rw [h, List.filter_map, List.map_map]
  simp only [Function.comp_def, keeps]

theorem beginFull_keeps (set : List Nat) (c : Channel) :
    (c.beginFull set).num = c.num ∧ (c.beginFull set).status = c.status := by
  unfold Channel.beginFull
  split <;> exact ⟨rfl, rfl⟩

theorem restored_keeps (met : PassMet) (set : List Nat) (c : Channel) :
    (c.restored met set).num = c.num ∧ (c.restored met set).status = c.status := by
  unfold Channel.restored
  repeat' split
  all_goals exact ⟨rfl, rfl⟩

/-- A pass taken back leaves the signal channels (R70). -/
theorem unbegin_signalSet (ltu : Ltu) (prepared : Bool) (pass : Pass) :
    (ltu.unbegin prepared pass).signalSet = ltu.signalSet := by
  unfold Ltu.unbegin
  cases pass.kind
  · rfl
  · rfl
  · exact signalSet_map rfl (restored_keeps _ _)

/-! ### A signal pass that is due (R70, R73) -/

/-- The signal pass that was due is pending still, has begun over the fitted signal channels, or finds none. -/
def Ltu.signalTaken (ltu : Ltu) : Prop :=
  ltu.pendingSignal = true ∨ (∃ set, ltu.pass = some ⟨.signal, set, set⟩ ∧ set = ltu.signalSet)
    ∨ ∀ c ∈ ltu.channels, 16 < c.num → c.status = .off

/-- A due signal pass that finds a channel is served, or a retest before it (R70). -/
theorem kindServed_of_signal {d : Device} (s : d.ltu.pendingSignal = true) (n : d.passSet .signal ≠ []) :
    d.kindServed = some .retest ∨ d.kindServed = some .signal := by
  by_cases r : d.ltu.pendingRetest = true ∧ d.passSet .retest ≠ []
  · exact .inl (kindServed_retest r.1 r.2)
  · refine .inr (kindServed_signal ?_ s n)
    by_cases p : d.ltu.pendingRetest = true
    · exact .inr (not_not.1 fun found => r ⟨p, found⟩)
    · exact .inl (Bool.eq_false_iff.2 p)

/-- A due signal pass in a unit that serves its pending kinds. -/
theorem PassesServed.signalTaken {d e : Device} (h : PassesServed d e) (s : d.ltu.pendingSignal = true) :
    e.ltu.signalTaken := by
  obtain ⟨-, channels⟩ := h.full
  have same : e.ltu.signalSet = d.ltu.signalSet := by
    split at channels
    · exact signalSet_map channels (beginFull_keeps _)
    · exact signalSet_map (f := id) (by rw [channels, List.map_id]) fun _ => ⟨rfl, rfl⟩
  by_cases n : d.passSet .signal = []
  · rw [passSet_signal, ← same] at n
    exact .inr (.inr (signalSet_eq_nil n))
  · rcases kindServed_of_signal s n with k | k
    · obtain ⟨-, -, pending, -⟩ := h.of_kind k
      exact .inl (pending.trans (by rw [s]; rfl))
    · obtain ⟨begun, -⟩ := h.of_kind k
      exact .inr (.inl ⟨_, begun, (passSet_signal d).trans same.symm⟩)

/-- A pass that goes on at the moment at which a pass ended, with a signal pass due, is a retest, or there is no signal
channel (R70, R83). -/
theorem signalSet_of_goesOn {d : Device} {pass : Pass} (s : d.ltu.pendingSignal = true)
    (m : d.ltu.endedAt = some d.clock) (k : d.kindBefore pass = none) (other : pass.kind ≠ .retest) :
    d.ltu.signalSet = [] := by
  by_contra n
  unfold Device.kindBefore at k
  rw [if_neg (not_not.2 m)] at k
  split at k
  · cases k
  · rw [if_pos ⟨s, other, by rwa [passSet_signal, Device.unbegin, Device.onLtu_ltu, unbegin_signalSet]⟩] at k
    cases k

/-- A due signal pass in a following-up, whatever the lamp check was at. -/
theorem LampsFollow.signalTaken {a b : Device} (h : LampsFollow a b) (s : a.ltu.pendingSignal = true) :
    b.ltu.signalTaken := by
  have due : (a.atPasses b).ltu.pendingSignal = true := s
  cases p : (a.atPasses b).ltu.pass with
  | none => exact (h.idle p).signalTaken due
  | some pass =>
    cases stop : (a.atPasses b).stopFalls with
    | true => exact (h.stopped (Option.isSome_of_eq_some p) stop).signalTaken due
    | false =>
      cases k : (a.atPasses b).kindBefore pass with
      | some kind =>
        refine (h.givesWay pass p stop (Option.isSome_of_eq_some k)).signalTaken ?_
        obtain ⟨-, pending, -⟩ := unbegin_fields (a.atPasses b).ltu (a.atPasses b).cu.phase.prepared pass
        exact pending.trans (by rw [due, Bool.or_true])
      | none =>
        obtain ⟨-, -, ltu⟩ := h.goesOn pass p stop k
        rw [ltu]
        split
        · next m =>
          by_cases retest : pass.kind = .retest
          · exact .inl (by simp [due, retest])
          · exact .inr (.inr (signalSet_eq_nil (signalSet_of_goesOn due m k retest)))
        · exact .inl due

/-! ### Entry to LISTEN (R73, R98, R159, R163) -/

/-- What the entry to LISTEN starts, before it is followed up. -/
def Device.listening (d : Device) : Device :=
  { d with
    sc := { d.sc with
      mode := .listen, listenTimer := some (d.clock + 5000000), silence := some (d.clock + 10000000),
      conflictTimer := none,
      minuteTimer := if d.sc.minuteTimer.isSome then d.sc.minuteTimer else some (d.clock + 60000000) },
    hcu := { d.hcu with claimTimer := some (d.clock + 31000 * d.conf.station) },
    ltu := { d.ltu with pendingSignal := true, signalTimer := some (d.clock + 60000000) },
    lu := if d.sc.mode = .start then { d.lu with quiet := false, quietTimer := some (d.clock + 240) } else d.lu }

theorem toListen_eq (d : Device) : d.toListen = d.listening := by
  unfold Device.toListen Device.listening
  by_cases start : d.sc.mode = .start
  · rw [if_pos start]
    simp only [start, beq_self_eq_true]
    rfl
  · rw [if_neg start]
    simp only [beq_eq_false_iff_ne.2 start]
    rfl

theorem listening_line (d : Device) : d.listening.lu.peers = d.lu.peers ∧ d.listening.lu.stats = d.lu.stats
    ∧ d.listening.lu.lists = d.lu.lists := by
  unfold Device.listening
  dsimp only
  split <;> exact ⟨rfl, rfl, rfl⟩

/-- The minute tick timer starts at the first entry since reset (R163). -/
theorem listening_minuteTimer_starts {d : Device} (h : d.sc.minuteTimer = none) :
    d.listening.sc.minuteTimer = some (d.clock + 60000000) :=
  if_neg (by rw [h]; decide)

/-- A minute tick timer that runs goes on. -/
theorem listening_minuteTimer_runs {d : Device} {m : Nat} (h : d.sc.minuteTimer = some m) :
    d.listening.sc.minuteTimer = some m :=
  (if_pos (by rw [h]; rfl)).trans h

/-- In LISTEN no coupling begins (R27). -/
theorem listening_coupleNow (d : Device) : d.listening.coupleNow = false := Bool.and_false _

/-- `e` is what the entry to LISTEN makes of the station `d` that stands before it. -/
structure ListenEntered (d e : Device) : Prop where
  clock : e.clock = d.clock
  sc : e.sc =
    { d.listening.sc with phase := ⟨.initial, false⟩, heat := e.sc.heat, lamp := e.sc.lamp, fault := e.sc.fault }
  claimTimer : e.hcu.claimTimer = some (d.clock + 31000 * d.conf.station)
  signalTimer : e.ltu.signalTimer = some (d.clock + 60000000)
  signalPass : e.ltu.signalTaken
  unbegun : e.lu.unbegun = true
  pins : e.pins = d.pins
  plan : e.cu.plan = d.cu.plan
  line : e.lu.peers = d.lu.peers ∧ e.lu.stats = d.lu.stats ∧ e.lu.lists = d.lu.lists

/-- A following-up of the entry to LISTEN, with PHASE set INITIAL, an early NOTICE asked for and the access to the line
looked at again after it (R12). -/
theorem ListenEntered.of_followed {d c : Device} (f : Followed d.listening c) (backoff : Timer) :
    ListenEntered d
      { c with
        sc := { c.sc with phase := ⟨.initial, false⟩ }, lu := { c.lu with unbegun := true, backoff := backoff } } := by
  obtain ⟨core, -, -, lamps, -, -⟩ := id f
  obtain ⟨stays, -⟩ := f.uncoupled (listening_coupleNow d)
  obtain ⟨-, -, signalTimer⟩ := stays.timers
  obtain ⟨plan, -⟩ := core.plan
  exact {
    clock := core.clock
    sc := by dsimp only; rw [core.sc]
    claimTimer := by dsimp only; rw [core.hcu]; rfl
    signalTimer := signalTimer
    signalPass := lamps.signalTaken rfl
    unbegun := rfl
    pins := core.pins
    plan := plan
    line := by dsimp only; rw [core.lu]; exact listening_line d }

/-- The entry to LISTEN, whatever event leads to it. -/
theorem listenEntry_entered (before d : Device) : ListenEntered d (before.listenEntry d) := by
  have f : Followed d.listening (close before d.toListen) := toListen_eq d ▸ followed_close before d.toListen
  have speaks : (close before d.toListen).sc.mode.speaks = true := by rw [f.1.sc]; rfl
  unfold Device.listenEntry
  rw [requestNotice_eq, seekLine_eq]
  simp only [Device.onSc, Device.onLu, speaks, Bool.or_true]
  exact .of_followed f _

/-- Settles O7: both ends enter LISTEN (`listenEntry_entered`), with the latch of a sample that reads high, or without
the CONFLICT timer. -/
theorem entryToListenStartsTheTimers : Obligations.EntryToListenStartsTheTimers := by
  refine ⟨fun s t0 high due => ?_, fun s t0 due => ?_⟩
  · have x : exec (.shedSelfTestEnd high) s
        = .next { s with dev := s.dev.listenEntry ((s.dev.reach t0).endSelfTest high) } :=
      exec_next rfl (congrArg (s.dev.onExpiry · _) due)
    have h := listenEntry_entered s.dev ((s.dev.reach t0).endSelfTest high)
    have minute (none : s.dev.sc.minuteTimer = .none) := (congrArg Sc.minuteTimer h.sc).trans
      (listening_minuteTimer_starts (d := (s.dev.reach t0).endSelfTest high) none)
    obtain ⟨peers, stats, lists⟩ := h.line
    refine ⟨_, x, rfl, h.clock, ?_, ?_, ?_, ?_, ?_, ?_, h.claimTimer, h.signalTimer, h.signalPass, minute, ?_,
      h.unbegun, h.pins, ?_, h.plan, peers, stats, lists⟩
    all_goals rw [h.sc]
    all_goals rfl
  · have x : exec .conflictQuietExpiry s = .next { s with dev := s.dev.listenEntry (s.dev.reach t0) } :=
      exec_next rfl (congrArg (s.dev.onExpiry · _) due)
    have h := listenEntry_entered s.dev (s.dev.reach t0)
    have minute (m : Nat) (running : s.dev.sc.minuteTimer = some m) := (congrArg Sc.minuteTimer h.sc).trans
      (listening_minuteTimer_runs (d := s.dev.reach t0) running)
    obtain ⟨peers, stats, lists⟩ := h.line
    refine ⟨_, x, rfl, h.clock, ?_, ?_, ?_, ?_, ?_, h.claimTimer, h.signalTimer, h.signalPass, minute, ?_,
      h.unbegun, h.pins, ?_, h.plan, peers, stats, lists⟩
    all_goals rw [h.sc]
    all_goals rfl

end Sys2Proof.Machine
end

section
/-! THEOREMS. A step runs the command at the front of the queue (`stepRunsFrontCommand`). -/

namespace Sys2Proof.Machine

/-- Settles O1: a queue with a command at its front takes the branch of `step` that runs it. -/
theorem stepRunsFrontCommand : Obligations.StepRunsFrontCommand := by
  intro c rest s front
  rw [step, front]

end Sys2Proof.Machine
end
